-- ==== Sys2Proof/Word.lean ====
section
/-! DEFINITION. The words of TAFC: every value is an unsigned integer of a stated width, bit 0 the least
significant (spec/00_scope.md R8). -/

namespace Sys2Proof

/-- One payload byte. -/
abbrev Byte := BitVec 8

/-- One command word on the CMD port (R80; `CMDW` = 64). -/
abbrev CommandWord := BitVec 64

/-- One response word on the RSP port (R90; `RSPW` = 32). -/
abbrev ResponseWord := BitVec 32

/-- The 7-bit micro-state `U` = {`PHASE`, `SUB`} (R100). -/
abbrev MicroCode := BitVec 7

end Sys2Proof
end

