-- ==== Sys2Proof/Syntax.lean ====
section
/-! DEFINITION. The instructions: one constructor for each row of spec/opcode_table.json. A constructor
carries the operand fields of its row, with every value the encoding admits, the illegal lengths of ENQ and
WRDISP included: those are instructions that answer with an error (spec/42_commands.md R171, R172). -/

namespace Sys2Proof

inductive Instr where
  /-- ENQ: `LEN` and the lanes `B0`..`B6` (R171). -/
  | enq (len : BitVec 3) (b : Vector Byte 7)
  /-- WRDISP: `LEN` = c, start address a = `B0`, segment lanes `B1`..`B6` (R172). -/
  | wrdisp (c : BitVec 3) (a : Byte) (segs : Vector Byte 6)
  /-- WRSEG: address a = `B0`, segment byte `B1` (R173). -/
  | wrseg (a : Byte) (seg : Byte)
  /-- BRIGHT: lvl = `B0[2:0]` (R174). -/
  | bright (lvl : BitVec 3)
  /-- DON (R175). -/
  | don
  /-- DOFF (R176). -/
  | doff
  /-- ACKRC (R177). -/
  | ackrc
  /-- STAT (R178). -/
  | stat
  /-- WRBYTE b, the pseudo-instruction `ENQ b` (R86). -/
  | wrbyte (b : Byte)
  /-- U_IDLE (R132, R133). -/
  | uIdle
  /-- U_START0 (R134). -/
  | uStart0
  /-- U_START1 (R135). -/
  | uStart1
  /-- U_START2 (R136). -/
  | uStart2
  /-- U_WBIT, the bit index sss = `SUB`, 0..7 (R137). -/
  | uWbit (k : BitVec 3)
  /-- U_WPREP (R138). -/
  | uWprep
  /-- U_WCLKH (R139). -/
  | uWclkh
  /-- U_ACKS (R140). -/
  | uAcks
  /-- U_ACKE (R141). -/
  | uAcke
  /-- U_STOP0 (R142). -/
  | uStop0
  /-- U_STOP1 (R143). -/
  | uStop1
  /-- U_STOP2 (R144). -/
  | uStop2
  /-- U_STOP3 (R145). -/
  | uStop3
  /-- U_DONE (R146). -/
  | uDone
deriving DecidableEq, Repr

end Sys2Proof
end

