-- ==== Sys2Proof/WellFormed.lean ====
section
/-! DEFINITION. Which instructions the assembler syntax of spec/30_encoding.md R86 can write: the legal
lengths of R83 and zero in every lane that R83 marks `0`. -/

namespace Sys2Proof

/-- Lanes with index `n` and above are zero. -/
abbrev LanesZeroFrom {m : Nat} (n : Nat) (v : Vector Byte m) : Prop :=
  ∀ k : Fin m, n ≤ k.val → v[k] = 0

/-- R83 and R86: ENQ has 1..7 bytes and nothing in the lanes above them; WRDISP has 0..6 segments and nothing
in the lanes above them; the other rows have no illegal operand value. -/
def Instr.wellFormed : Instr → Bool
  | .enq len b => decide (len ≠ 0) && decide (LanesZeroFrom len.toNat b)
  | .wrdisp c _ segs => decide (c ≠ 7) && decide (LanesZeroFrom c.toNat segs)
  | .wrseg _ _ | .bright _ | .don | .doff | .ackrc | .stat | .wrbyte _ => true
  | .uIdle | .uStart0 | .uStart1 | .uStart2 | .uWbit _ | .uWprep | .uWclkh | .uAcks | .uAcke
  | .uStop0 | .uStop1 | .uStop2 | .uStop3 | .uDone => true

abbrev Instr.WellFormed (i : Instr) : Prop := i.wellFormed = true

/-- The instruction a word is read back as: `ENQ b` with one byte is `WRBYTE b` (R86: `WRBYTE b` expands to
`ENQ b`, so both have the same word; log entry 14). -/
def Instr.canonical : Instr → Instr
  | .enq len b => if len = 1 ∧ LanesZeroFrom 1 b then .wrbyte b[0] else .enq len b
  | .wrdisp c a segs => .wrdisp c a segs
  | .wrseg a seg => .wrseg a seg
  | .bright lvl => .bright lvl
  | .don => .don
  | .doff => .doff
  | .ackrc => .ackrc
  | .stat => .stat
  | .wrbyte b => .wrbyte b
  | .uIdle => .uIdle
  | .uStart0 => .uStart0
  | .uStart1 => .uStart1
  | .uStart2 => .uStart2
  | .uWbit k => .uWbit k
  | .uWprep => .uWprep
  | .uWclkh => .uWclkh
  | .uAcks => .uAcks
  | .uAcke => .uAcke
  | .uStop0 => .uStop0
  | .uStop1 => .uStop1
  | .uStop2 => .uStop2
  | .uStop3 => .uStop3
  | .uDone => .uDone

end Sys2Proof
end

