-- ==== Sys2Proof/Decode.lean ====
section
/-! DEFINITION. The decoders of the two code spaces of spec/30_encoding.md, 64-bit command words (R80 to R85)
and 7-bit micro-states (R100), both total and rejecting by name; and the encoder, written from the same
tables. -/

namespace Sys2Proof

/-- Why a word is no instruction. -/
inductive DecodeError where
  /-- `OP` is 0x0 or 0x9..0xF (R84 step 1, R179). -/
  | reservedOpcode
  /-- `Z` = 1, or a field that R83 marks `0` for the opcode is not zero (R84 step 2, R85). -/
  | reservedField
  /-- A `PHASE` code or a `SUB` value that R100 does not list (R147). -/
  | reservedMicroState
deriving DecidableEq, Repr

/-- A word of one of the two code spaces. -/
inductive Encoding where
  | command (w : CommandWord)
  | micro (u : MicroCode)
deriving DecidableEq, Repr

/-! ### Fields of a command word (R80) -/

/-- `OP` = bits [3:0]. -/
def opField (w : CommandWord) : BitVec 4 := w.extractLsb' 0 4

/-- `LEN` = bits [6:4]. -/
def lenField (w : CommandWord) : BitVec 3 := w.extractLsb' 4 3

/-- `Z` = bit 7. -/
def zField (w : CommandWord) : Bool := w.getLsbD 7

/-- `B<k>` = bits [8k+15 : 8k+8]. -/
def lane (w : CommandWord) (k : Nat) : Byte := w.extractLsb' (8 * k + 8) 8

/-- Every lane `B<j>` with j >= k is zero. -/
def lanesClearFrom (w : CommandWord) (k : Nat) : Bool := w >>> (8 * k + 8) == 0

/-! ### Commands -/

/-- The words of ENQ (`OP` = 1, `Z` = 0); LEN = 1 with nothing above `B0` is the row WRBYTE (log entry 14). -/
def decodeEnq (w : CommandWord) : Instr :=
  if lenField w = 1 ∧ lanesClearFrom w 1 then .wrbyte (lane w 0)
  else .enq (lenField w) (Vector.ofFn fun k : Fin 7 => lane w k)

/-- The opcode's fixed fields hold: `ok` when they do, R84 step 2 when not. -/
def decodeIf (fixedFieldsHold : Bool) (i : Instr) : Except DecodeError Instr :=
  if fixedFieldsHold then .ok i else .error .reservedField

/-- R82, R83 and R84 steps 1 and 2. The lane checks of ENQ and WRDISP depend on `LEN`: they, and the length
check (step 3), belong to the instruction's meaning (log entry 15). -/
def decodeCommand (w : CommandWord) : Except DecodeError Instr :=
  match (opField w).toNat with
  | 0x1 => decodeIf (!zField w) (decodeEnq w)
  | 0x2 => decodeIf (!zField w)
      (.wrdisp (lenField w) (lane w 0) (Vector.ofFn fun k : Fin 6 => lane w (k + 1)))
  | 0x3 => decodeIf (lenField w == 0 && !zField w && lanesClearFrom w 2) (.wrseg (lane w 0) (lane w 1))
  | 0x4 => decodeIf (lenField w == 0 && !zField w && (lane w 0).extractLsb' 3 5 == 0 && lanesClearFrom w 1)
      (.bright ((lane w 0).extractLsb' 0 3))
  | 0x5 => decodeIf (lenField w == 0 && !zField w && lanesClearFrom w 0) .don
  | 0x6 => decodeIf (lenField w == 0 && !zField w && lanesClearFrom w 0) .doff
  | 0x7 => decodeIf (lenField w == 0 && !zField w && lanesClearFrom w 0) .ackrc
  | 0x8 => decodeIf (lenField w == 0 && !zField w && lanesClearFrom w 0) .stat
  | _ => .error .reservedOpcode

/-! ### Micro-states -/

/-- `PHASE` = `U`[6:4]. -/
def phaseField (u : MicroCode) : BitVec 3 := u.extractLsb' 4 3

/-- `SUB` = `U`[3:0]. -/
def subField (u : MicroCode) : BitVec 4 := u.extractLsb' 0 4

/-- The table of R100, row by row. -/
def decodeMicro (u : MicroCode) : Except DecodeError Instr :=
  match (phaseField u).toNat, (subField u).toNat with
  | 0, 0 => .ok .uIdle
  | 1, 0 => .ok .uStart0
  | 1, 1 => .ok .uStart1
  | 1, 2 => .ok .uStart2
  | 2, 8 => .ok .uWprep
  | 2, 9 => .ok .uWclkh
  | 2, n => if n < 8 then .ok (.uWbit (u.extractLsb' 0 3)) else .error .reservedMicroState
  | 3, 0 => .ok .uAcks
  | 3, 1 => .ok .uAcke
  | 4, 0 => .ok .uStop0
  | 4, 1 => .ok .uStop1
  | 4, 2 => .ok .uStop2
  | 4, 3 => .ok .uStop3
  | 5, 0 => .ok .uDone
  | _, _ => .error .reservedMicroState

/-- The decoder of both code spaces. -/
def decode : Encoding → Except DecodeError Instr
  | .command w => decodeCommand w
  | .micro u => decodeMicro u

/-! ### The encoder -/

/-- The 64-bit word of R80 with these fields, `Z` = 0. -/
def commandWord (op : BitVec 4) (len : BitVec 3) (b0 b1 b2 b3 b4 b5 b6 : Byte) : CommandWord :=
  b6 ++ b5 ++ b4 ++ b3 ++ b2 ++ b1 ++ b0 ++ 0#1 ++ len ++ op

/-- R86 for the commands, R100 for the micro-steps. -/
def encode : Instr → Encoding
  | .enq len b => .command (commandWord 0x1 len b[0] b[1] b[2] b[3] b[4] b[5] b[6])
  | .wrdisp c a s => .command (commandWord 0x2 c a s[0] s[1] s[2] s[3] s[4] s[5])
  | .wrseg a seg => .command (commandWord 0x3 0 a seg 0 0 0 0 0)
  | .bright lvl => .command (commandWord 0x4 0 (lvl.setWidth 8) 0 0 0 0 0 0)
  | .don => .command (commandWord 0x5 0 0 0 0 0 0 0 0)
  | .doff => .command (commandWord 0x6 0 0 0 0 0 0 0 0)
  | .ackrc => .command (commandWord 0x7 0 0 0 0 0 0 0 0)
  | .stat => .command (commandWord 0x8 0 0 0 0 0 0 0 0)
  | .wrbyte b => .command (commandWord 0x1 1 b 0 0 0 0 0 0)
  | .uIdle => .micro 0b0000000
  | .uStart0 => .micro 0b0010000
  | .uStart1 => .micro 0b0010001
  | .uStart2 => .micro 0b0010010
  | .uWbit k => .micro (0b0100#4 ++ k)
  | .uWprep => .micro 0b0101000
  | .uWclkh => .micro 0b0101001
  | .uAcks => .micro 0b0110000
  | .uAcke => .micro 0b0110001
  | .uStop0 => .micro 0b1000000
  | .uStop1 => .micro 0b1000001
  | .uStop2 => .micro 0b1000010
  | .uStop3 => .micro 0b1000011
  | .uDone => .micro 0b1010000

/-- The row of spec/opcode_table.json, its `match` and its `mask`, that an instruction's word must fit. -/
def Instr.tableRow : Instr → Nat × Nat
  | .enq _ _ => (0x0000000000000001, 0x000000000000008F)
  | .wrdisp _ _ _ => (0x0000000000000002, 0x000000000000008F)
  | .wrseg _ _ => (0x0000000000000003, 0xFFFFFFFFFF0000FF)
  | .bright _ => (0x0000000000000004, 0xFFFFFFFFFFFFF8FF)
  | .don => (0x0000000000000005, 0xFFFFFFFFFFFFFFFF)
  | .doff => (0x0000000000000006, 0xFFFFFFFFFFFFFFFF)
  | .ackrc => (0x0000000000000007, 0xFFFFFFFFFFFFFFFF)
  | .stat => (0x0000000000000008, 0xFFFFFFFFFFFFFFFF)
  | .wrbyte _ => (0x0000000000000011, 0xFFFFFFFFFFFF00FF)
  | .uIdle => (0x00, 0x7F)
  | .uStart0 => (0x10, 0x7F)
  | .uStart1 => (0x11, 0x7F)
  | .uStart2 => (0x12, 0x7F)
  | .uWbit _ => (0x20, 0x78)
  | .uWprep => (0x28, 0x7F)
  | .uWclkh => (0x29, 0x7F)
  | .uAcks => (0x30, 0x7F)
  | .uAcke => (0x31, 0x7F)
  | .uStop0 => (0x40, 0x7F)
  | .uStop1 => (0x41, 0x7F)
  | .uStop2 => (0x42, 0x7F)
  | .uStop3 => (0x43, 0x7F)
  | .uDone => (0x50, 0x7F)

/-- A word fits the row: its bits under the mask are the row's match. -/
def Encoding.fits : Encoding → Nat × Nat → Bool
  | .command w, (m, mask) => w &&& BitVec.ofNat 64 mask == BitVec.ofNat 64 m
  | .micro u, (m, mask) => u &&& BitVec.ofNat 7 mask == BitVec.ofNat 7 m

/-- What the decoder reads from a word of the opcode table: the rows of at most 8 bits are micro-states (the
eighth bit does not exist, so it must be 0), the others are 64-bit command words. -/
def decodeTableWord (nbits w : Nat) : Option Instr :=
  if nbits ≤ 8 then
    if w < 128 then (decodeMicro (BitVec.ofNat 7 w)).toOption else none
  else if w < 2 ^ 64 then (decodeCommand (BitVec.ofNat 64 w)).toOption else none

end Sys2Proof
end

