-- ==== Sys2Proof/Config.lean ====
section
/-! DEFINITION. What an implementation fixes (the parameters the spec leaves OPEN, spec/00_scope.md R6) and
the free values: constants without a body, so that nothing can be proved of what they are. -/

namespace Sys2Proof

/-- The OPEN parameters of R6 and R69, fixed when a block is built. They stand in the state, so a statement
about every state is a statement about every value of them; no step writes them. -/
structure Params where
  /-- `N`, the number of queue slots, 3 <= N <= 256 (R6, 92 D22). -/
  n : Nat
  /-- `DATA_CMD_FIXED`, the fixed-address data command byte (R6, 92 D19). -/
  dataCmdFixed : Byte
  /-- `DISPLAY_ON_BYTE`, the byte DON sends (R6, 92 D20). -/
  displayOnByte : Byte
  /-- `DISPLAY_OFF_BYTE`, the byte DOFF sends (R6, 92 D20). -/
  displayOffByte : Byte
  /-- `NPROD`, the number of producers, at least 1 (R6, R243). -/
  nprod : Nat
  /-- `T_TICK`, the tick period in nanoseconds (R6, R240); read by no rule. -/
  tTick : Nat
  /-- `CMD_PORT_ADDR`, where a platform maps the command port (R69); read by no rule. -/
  cmdPortAddr : Nat
deriving DecidableEq, Repr

/-- The ranges R6 gives: 3 <= `N` <= 256 and `NPROD` >= 1. -/
abbrev Params.Legal (p : Params) : Prop := 3 ≤ p.n ∧ p.n ≤ 256 ∧ 1 ≤ p.nprod

/-- There is a producer with this number, 0 to `NPROD` - 1 (R243); number 0 is always there (R6). -/
def Params.hasProducer (p : Params) (k : Nat) : Bool := k == 0 || decide (k < p.nprod)

/-- The fixed-address data command byte of the block that `State.reset` stands for: OPEN (R6). -/
opaque Config.dataCmdFixed : Byte

/-- The byte DON sends in the block that `State.reset` stands for: OPEN (R6). -/
opaque Config.displayOnByte : Byte

/-- The byte DOFF sends in the block that `State.reset` stands for: OPEN (R6). -/
opaque Config.displayOffByte : Byte

/-- How many producers beyond the first the block that `State.reset` stands for has: OPEN (R6). -/
opaque Config.furtherProducers : Nat

/-- The tick period of the block that `State.reset` stands for: OPEN (R6). -/
opaque Config.tTick : Nat

/-- The command port's address on the platform `State.reset` stands for: OPEN (R69). -/
opaque Config.cmdPortAddr : Nat

/-- `CUR_LEN` after the RESET transaction with this number: unspecified (R40, R260), so a free value. -/
opaque Config.freeCurLen : Nat → BitVec 3

/-- `CUR_B[k]` after the RESET transaction with this number: unspecified (R40, R260), so a free value. -/
opaque Config.freeCurByte : Nat → Nat → Byte

/-- The `len` of a slot that nothing has written since the RESET with this number: unspecified (R40). -/
opaque Config.freeSlotLen : Nat → Nat → BitVec 3

/-- Byte k of a slot that nothing has written since the RESET with this number: unspecified (R40). -/
opaque Config.freeSlotByte : Nat → Nat → Nat → Byte

/-- The choice among several waiting producers, `chosen without any rule` (R214, R243): a free value, drawn
at the number of port events taken so far. -/
opaque Config.arbiter : Nat → Nat

/-- The parameters of the block that `State.reset` stands for. DESIGN CHOICE: `N` = 50, the source's example
(R6), because a queue size must be a number for a run to be evaluated; every other OPEN value has no body.
(log entry 1) -/
def Params.atReset : Params where
  n := 50
  dataCmdFixed := Config.dataCmdFixed
  displayOnByte := Config.displayOnByte
  displayOffByte := Config.displayOffByte
  nprod := Config.furtherProducers + 1
  tTick := Config.tTick
  cmdPortAddr := Config.cmdPortAddr

end Sys2Proof
end

