-- ==== Sys2Proof/Machine/State.lean ====
section
/-! DEFINITION. The state of the block, plain data: every register of spec/10_state.md R20, the slot file
(R26), the trace (R37), the ports (spec/60_exceptions.md R242) and the build-time parameters (R6); what a
step can stop with; and the state after reset (R40). -/

namespace Sys2Proof.Machine

/-- A frame record `{len, b[0..6]}` (R26, R62). -/
structure Frame where
  len : BitVec 3
  b : Vector Byte 7
deriving DecidableEq, Repr

/-- An observable action at the block's pins (R37); a line level is `true` for 1. -/
inductive Event where
  | clk (v : Bool)
  | dio (v : Bool)
  | smp (a : Bool)
  | tmrStart
  | tmrStop
deriving DecidableEq, Repr

/-- A command word that a producer issues (R243). -/
structure Request where
  producer : Nat
  word : CommandWord
deriving DecidableEq, Repr

/-- What reaches the input ports at one instant (R214, R242): whether RESET is asserted, what producers issue, in
the order they issue it, and whether a TICK arrives, with the level the device holds the data line at then
(`DIO_IN`, R13). -/
structure Instant where
  reset : Bool
  commands : List Request
  tick : Option Bool
deriving DecidableEq, Repr

/-- One event taken by the block; each is one transaction (R10). A command carries the number of the producer that
gets the response (R242); the block itself does not know it (R243). -/
inductive PortEvent where
  | reset
  | command (r : Request)
  | tick (dio : Bool)
deriving DecidableEq, Repr

/-- The slot file: the slots written since reset with what was written, indices strictly rising. A slot that is
not listed holds an unspecified record (R40; log entry 4). -/
abbrev Memory := List (Nat × Frame)

structure State where
  /-- The OPEN parameters (R6); no step writes them. -/
  params : Params
  /-- `PHASE` (R21). -/
  phase : BitVec 3
  /-- `SUB` (R22). -/
  sub : BitVec 4
  /-- `BPTR` (R23). -/
  bptr : BitVec 3
  /-- `REM` (R23). -/
  rem : BitVec 3
  /-- `CUR_LEN` (R24). -/
  curLen : BitVec 3
  /-- `CUR_B[0..6]` (R24). -/
  curB : Vector Byte 7
  /-- `HEAD`, a slot index of `IDXW` bits (R6, R25; log entry 13). -/
  head : Nat
  /-- `TAIL`, a slot index of `IDXW` bits (R6, R25; log entry 13). -/
  tail : Nat
  /-- `Q[0..N-1]` (R26). -/
  q : Memory
  /-- `ACK_MISS` (R27). -/
  ackMiss : BitVec 8
  /-- `TIMER_ON`, and the output `TMR_EN` (R28, R217). -/
  timerOn : Bool
  /-- `CLK_OUT`, and the output `CLK` (R29). -/
  clkOut : Bool
  /-- `DIO_OUT`, and the output `DIO` (R29). -/
  dioOut : Bool
  /-- `TRACE`, oldest event first (R37). -/
  trace : List Event
  /-- The input `DIO_IN` (R242): the data-line level of the tick being taken. -/
  dioIn : Bool
  /-- The output `RSP` (R242): every response so far, oldest first (log entry 10). -/
  responses : List ResponseWord
  /-- Where each response went (R242, R243): the producer of each command taken so far, oldest first (log
  entry 23). -/
  issuers : List Nat
  /-- The inputs `RESET`, `CMD` and `TICK` (R242): what has still to be taken, instant by instant
  (log entry 7). -/
  arrivals : List Instant
  /-- The model's own: how many RESET transactions there were, the index of the free values of R40. -/
  resets : Nat
  /-- The model's own: how many port events were taken, the index of the free choice of R243. -/
  taken : Nat
deriving DecidableEq, Repr

/-- Why a step stops with a fault. -/
inductive Fault where
  /-- Raised by a tick that the gate accepts while {`PHASE`, `SUB`} is not a row of R100: R147 asks a model for
  this fault. Safe: the hardware has no defined effect there. -/
  | unreachableMicroState
  /-- Raised by an access to a slot index at or above `N` (by the enqueueing commands through `HEAD` and by
  U_IDLE through `TAIL`): no such slot exists (R26, R61) and no run reaches it (R36). Safe: the model stops. -/
  | noSuchSlot
  /-- Raised by U_WBIT when `BPTR` = 7: there is no `CUR_B[7]` (R24) and no run reaches it (R36). Safe: the
  model stops. -/
  | noSuchPayloadByte
deriving DecidableEq, Repr

/-- Why an instruction is refused. -/
inductive Refusal where
  /-- Raised by `exec` alone, for an instruction without a meaning; none is left. Safe: the model stops. -/
  | notModelled (mnemonic : String)
deriving DecidableEq, Repr

/-- The block right after reset (R40): queue empty, timer stopped, both lines high, nothing at the ports.
`CUR_LEN` and `CUR_B` are unspecified there; DESIGN CHOICE: zero (log entry 2). -/
def State.reset : State where
  params := Params.atReset
  phase := 0
  sub := 0
  bptr := 0
  rem := 0
  curLen := 0
  curB := #v[0, 0, 0, 0, 0, 0, 0]
  head := 0
  tail := 0
  q := []
  ackMiss := 0
  timerOn := false
  clkOut := true
  dioOut := true
  trace := []
  dioIn := false
  responses := []
  issuers := []
  arrivals := []
  resets := 0
  taken := 0

end Sys2Proof.Machine
end

