-- ==== Sys2Proof/Machine/Operands.lean ====
section
/-! DEFINITION. Operand forms: the named constants (spec/00_scope.md R6, R17), index arithmetic (R116), frame
builders (R17, R62, R171 to R176) and the response word (R90, R230). -/

namespace Sys2Proof.Machine

/-! ### Phase codes (R21) -/

abbrev IDLE : BitVec 3 := 0
abbrev START : BitVec 3 := 1
abbrev WRITEBIT : BitVec 3 := 2
abbrev READACK : BitVec 3 := 3
abbrev STOP : BitVec 3 := 4
abbrev DONE : BitVec 3 := 5

/-! ### Command bytes (R6) -/

/-- `DATA_CMD_AUTO`. -/
def dataCmdAuto : Byte := 0x40

/-- `DISP_CTRL_ON`. -/
def dispCtrlOn : Byte := 0x88

/-- `ADDR_BASE`. -/
def addrBase : Byte := 0xC0

/-- The address byte `ADDR_BASE | a` of WRDISP and WRSEG (R172, R173); `a` is not range-checked. -/
def addressByte (a : Byte) : Byte := addrBase ||| a

/-- The display control byte `DISP_CTRL_ON | zext_8(lvl)` of BRIGHT (R174). -/
def brightnessByte (lvl : BitVec 3) : Byte := dispCtrlOn ||| lvl.setWidth 8

/-! ### Indices -/

/-- `IDXW` = ceil(log2 N), the width of `HEAD` and `TAIL` (R6). -/
def idxWidth (n : Nat) : Nat := Nat.log2 (n - 1) + 1

/-- What an index register holds when `i` is written to it: the low `IDXW` bits (R6, R25). -/
def toIndex (n i : Nat) : Nat := i % 2 ^ idxWidth n

/-- `inc(i)` (R116): the slot index after `i`, modulo `n` = `N`. -/
def inc (n i : Nat) : Nat := if i = n - 1 then 0 else i + 1

/-! ### Frames -/

/-- `frame(len, [b0, b1, ...])` with len the number of bytes listed; bytes not listed are 0 (R17, R62). -/
def Frame.of (bs : List Byte) : Frame where
  len := BitVec.ofNat 3 bs.length
  b := Vector.ofFn fun k : Fin 7 => bs.getD k 0

/-- What a slot holds that nothing has written since reset: unspecified (R40), so a free record. -/
def Frame.unwritten (resets i : Nat) : Frame where
  len := Config.freeSlotLen resets i
  b := Vector.ofFn fun k : Fin 7 => Config.freeSlotByte resets i k

/-- The frame of ENQ: `frame(n, [B0, ..., B(n-1)])` (R171). -/
def rawFrame (n : BitVec 3) (b : Vector Byte 7) : Frame := Frame.of (b.toList.take n.toNat)

/-- The second frame of WRDISP: `frame(c + 1, [ADDR_BASE | a, B1, ..., Bc])` (R172). -/
def displayFrame (c : BitVec 3) (a : Byte) (segs : Vector Byte 6) : Frame :=
  Frame.of (addressByte a :: segs.toList.take c.toNat)

/-- The lanes with index `n` and above are zero: the operand check of R83 for ENQ and WRDISP. -/
def lanesZeroFrom {m : Nat} (n : Nat) (v : Vector Byte m) : Bool := (v.toList.drop n).all (· == 0)

/-- The frames of one command: one or two (R170). -/
inductive Batch where
  | one (f : Frame)
  | two (f1 f2 : Frame)
deriving DecidableEq, Repr

/-- `length(frames)` (R170). -/
def Batch.size : Batch → Nat
  | .one _ => 1
  | .two _ _ => 2

/-! ### Responses -/

/-- Response codes (R230). -/
inductive RspCode where
  | ok
  | errFull
  | errLen
  | errIllegal
deriving DecidableEq, Repr

/-- `CODE`, bits [1:0] of a response (R90, R230). -/
def RspCode.bits : RspCode → BitVec 2
  | .ok => 0
  | .errFull => 1
  | .errLen => 2
  | .errIllegal => 3

/-- The response word with these fields: `CODE` [1:0], `RES` [2], `DATA` [31:3] (R90). -/
def responseWord (code : RspCode) (res : Bool) (data : BitVec 29) : ResponseWord :=
  data ++ BitVec.ofBool res ++ code.bits

end Sys2Proof.Machine
end

