-- ==== Sys2Proof/Machine/Flags.lean ====
section
/-! DEFINITION. The flags and the status word, functions of state (spec/10_state.md R30 to R35), the queue
tests that are the same functions (spec/40_queue.md R110 to R112), the micro-state code (R100) and the
saturating count (R8, R140). -/

namespace Sys2Proof.Machine

/-- `EMPTY` (R30), `Q_ISEMPTY` (R110). -/
def isEmpty (s : State) : Bool := s.head == s.tail

/-- `FULL` (R31), `Q_ISFULL` (R111). -/
def isFull (s : State) : Bool := inc s.params.n s.head == s.tail

/-- `COUNT` = (`HEAD` - `TAIL`) mod `N`, the non-negative remainder (R32, R112). -/
def count (s : State) : Nat := (((s.head : Int) - s.tail) % (s.params.n : Int)).toNat

/-- `FREE` = `N` - 1 - `COUNT` (R32), `Q_FREE` (R112). -/
def free (s : State) : Nat := s.params.n - 1 - count s

/-- `ACK_CLEAN` (R33). -/
def ackClean (s : State) : Bool := s.ackMiss == 0

/-- `STATUS` (R35), from bit 31 down. -/
def status (s : State) : BitVec 32 :=
  s.ackMiss ++ BitVec.ofNat 8 (count s) ++ s.sub ++ 0#1 ++ s.phase ++ 0#1
    ++ BitVec.ofBool (ackClean s) ++ BitVec.ofBool s.timerOn ++ BitVec.ofBool (isFull s)
    ++ BitVec.ofBool (isEmpty s) ++ 0#1 ++ 0#2

/-- `U` = {`PHASE`, `SUB`} (R100, R130). -/
def microState (s : State) : MicroCode := s.phase ++ s.sub

/-- `sat_8(v + 1)` (R8, R140). -/
def satInc (v : BitVec 8) : BitVec 8 := if v = 255 then 255 else v + 1

end Sys2Proof.Machine
end

