-- ==== Sys2Proof/Machine/Ops.lean ====
section
/-! DEFINITION. The named operations: the line and timer primitives (spec/00_scope.md R12 to R16), the slot
file (R9, R60), the queue primitives (spec/40_queue.md), the answer to a command and its error (R11, R14,
R230), the wake (R211), SUBMIT (R170), the reset transaction (R260) and the order in which the ports' events
are taken (R214). -/

namespace Sys2Proof.Machine

/-- What a transaction answers. -/
abbrev Answer := Host.Outcome State Fault Refusal

/-! ### Line and timer primitives -/

/-- Append one event to the trace (R10). -/
def State.emit (e : Event) (s : State) : State := { s with trace := s.trace ++ [e] }

/-- `drive(CLK, v)` (R12). -/
def State.driveClk (v : Bool) (s : State) : State :=
  { s with clkOut := v, trace := s.trace ++ [.clk v] }

/-- `drive(DIO, v)` (R12). -/
def State.driveDio (v : Bool) (s : State) : State :=
  { s with dioOut := v, trace := s.trace ++ [.dio v] }

/-- `sample()` (R13): the level on `DIO_IN`, and the state with the event `Smp`. -/
def State.sample (s : State) : Bool × State := (s.dioIn, s.emit (.smp s.dioIn))

/-- `timer_start()` (R15). -/
def State.timerStart (s : State) : State := { s with timerOn := true, trace := s.trace ++ [.tmrStart] }

/-- `timer_stop()` (R16). -/
def State.timerStop (s : State) : State := { s with timerOn := false, trace := s.trace ++ [.tmrStop] }

/-- `SUB <- k`. -/
def State.setSub (k : BitVec 4) (s : State) : State := { s with sub := k }

/-- `PHASE <- p; SUB <- 0` (R22). -/
def State.enterPhase (p : BitVec 3) (s : State) : State := { s with phase := p, sub := 0 }

/-! ### Answers to a command -/

/-- `respond(code, data)` (R14, R90). -/
def State.respond (code : RspCode) (res : Bool) (data : BitVec 29) (s : State) : State :=
  { s with responses := s.responses ++ [responseWord code res data] }

/-- `raise CmdError(code)` (R11), what this block has in place of taking an exception (R236): the response carries
the code, nothing else is written, and control goes nowhere. -/
def State.raise (code : RspCode) (s : State) : State := s.respond code false 0

/-! ### The slot file -/

/-- What was last written to slot `i` since reset, if anything. -/
def Memory.read : Memory → Nat → Option Frame
  | [], _ => none
  | (j, f) :: q, i => if j = i then some f else Memory.read q i

/-- Write slot `i`, keeping the indices strictly rising. -/
def Memory.write : Memory → Nat → Frame → Memory
  | [], i, f => [(i, f)]
  | (j, g) :: q, i, f =>
    if i < j then (i, f) :: (j, g) :: q
    else if i = j then (i, f) :: q
    else (j, g) :: Memory.write q i f

/-- The canonical form: indices strictly rising. (No record is what an unlisted slot reads as: that is
unspecified.) -/
abbrev Memory.wf (q : Memory) : Prop := q.Pairwise fun x y => x.1 < y.1

/-- `MemWrite(i, 1, f)` (R9); a slot index at or above `N` does not exist (log entry 5). -/
def memWrite (i : Nat) (f : Frame) (s : State) : Except Fault State :=
  if i < s.params.n then .ok { s with q := s.q.write i f } else .error .noSuchSlot

/-- `MemRead(i, 1)` (R9); what reset left unspecified in a slot is a free record (R40). -/
def memRead (i : Nat) (s : State) : Except Fault Frame :=
  if i < s.params.n then .ok ((s.q.read i).getD (Frame.unwritten s.resets i)) else .error .noSuchSlot

/-! ### Queue primitives -/

/-- `HEAD <- i`, a register of `IDXW` bits (R6, R20). -/
def State.setHead (i : Nat) (s : State) : State := { s with head := toIndex s.params.n i }

/-- `TAIL <- i`, a register of `IDXW` bits (R6, R20). -/
def State.setTail (i : Nat) (s : State) : State := { s with tail := toIndex s.params.n i }

/-- `Q_ENQ(f)` (R113): whether it went in, and the state. -/
def qEnq (f : Frame) (s : State) : Except Fault (Bool × State) :=
  if isFull s then .ok (false, s)
  else match memWrite s.head f s with
    | .error r => .error r
    | .ok s1 => .ok (true, s1.setHead (inc s1.params.n s1.head))

/-- `Q_ENQ2(f1, f2)` (R114): both or neither. -/
def qEnq2 (f1 f2 : Frame) (s : State) : Except Fault (Bool × State) :=
  if free s < 2 then .ok (false, s)
  else match memWrite s.head f1 s with
    | .error r => .error r
    | .ok s1 => match memWrite (inc s1.params.n s1.head) f2 s1 with
      | .error r => .error r
      | .ok s2 => .ok (true, s2.setHead (inc s2.params.n (inc s2.params.n s2.head)))

/-- `Q_DEQ()` (R115): the frame, if there was one, and the state. -/
def qDeq (s : State) : Except Fault (Option Frame × State) :=
  if isEmpty s then .ok (none, s)
  else match memRead s.tail s with
    | .error r => .error r
    | .ok f => .ok (some f, s.setTail (inc s.params.n s.tail))

/-! ### Wake and SUBMIT -/

/-- `WAKE()` (R211). -/
def wake (s : State) : State := if s.phase = IDLE ∧ s.timerOn = false then s.timerStart else s

/-- `Q_ENQ` or `Q_ENQ2`, by the number of frames (R170). -/
def Batch.enqueue : Batch → State → Except Fault (Bool × State)
  | .one f, s => qEnq f s
  | .two f1 f2, s => qEnq2 f1 f2 s

/-- `SUBMIT(frames)` (R170). A queue primitive that answers false is `ERR_FULL` (R113), which the check before
it rules out in every reachable state (log entry 18). -/
def submit (fs : Batch) (s : State) : Answer :=
  if free s < fs.size then .next (s.raise .errFull)
  else match fs.enqueue s with
    | .error r => .fault r
    | .ok (false, _) => .next (s.raise .errFull)
    | .ok (true, s1) => .next ((wake s1).respond .ok false 0)

/-! ### Reset -/

/-- RESET (R260). `CUR_LEN`, `CUR_B` and every slot become unspecified: free values (log entry 3). No event, no
response; the parameters, the trace and what waits at the ports stay (log entry 21). -/
def resetTransaction (s : State) : State :=
  { s with
    phase := IDLE, sub := 0, bptr := 0, rem := 0
    curLen := Config.freeCurLen (s.resets + 1)
    curB := Vector.ofFn fun k : Fin 7 => Config.freeCurByte (s.resets + 1) k
    head := 0, tail := 0, q := []
    ackMiss := 0, timerOn := false, clkOut := true, dioOut := true
    resets := s.resets + 1 }

/-! ### Ports -/

/-- What the producers present on CMD: of each producer its oldest command alone, since it issues the next one only
after the response (R243, 93 I13), in the order it issues them (R72, R267). -/
def ready : List Request → List Request
  | [] => []
  | r :: rs => r :: (ready rs).filter fun r' => r'.producer != r.producer

/-- One of several, the one `choice` says: no rule fixes which (R214, R243). -/
def pick (choice : Nat) : List Request → Option Request
  | [] => none
  | [r] => some r
  | r :: r' :: rs => some ((r :: r' :: rs).getD (choice % (rs.length + 2)) r)

/-- What is issued at an instant, by the producers that there are (R243). -/
def Instant.issued (p : Params) (i : Instant) : List Request := i.commands.filter fun r => p.hasProducer r.producer

/-- Commands that still wait come before those of the next instant. -/
def carry : List Request → List Instant → List Instant
  | [], rest => rest
  | r :: rs, [] => [{ reset := false, commands := r :: rs, tick := none }]
  | r :: rs, i :: rest => { i with commands := r :: rs ++ i.commands } :: rest

/-- The next event the block takes, and what is left (R214): at one instant RESET first; then one command, of
those that the producers present the one `choice` picks; then the TICK; the other commands wait for the next
instant (log entry 8). An instant at which nothing arrives is passed over. -/
def nextEvent (p : Params) (choice : Nat) : List Instant → Option (PortEvent × List Instant)
  | [] => none
  | i :: rest =>
    if i.reset then some (.reset, { i with reset := false } :: rest)
    else match pick choice (ready (i.issued p)) with
      | some r => some (.command r, { i with commands := [] } :: carry ((i.issued p).erase r) rest)
      | none => match i.tick with
        | some a => some (.tick a, rest)
        | none => nextEvent p choice rest

/-- The next event in this state, and what is left at the ports; which of several waiting producers is served is a
free value. -/
def upcoming (s : State) : Option (PortEvent × List Instant) :=
  nextEvent s.params (Config.arbiter s.taken) s.arrivals

end Sys2Proof.Machine
end

