-- ==== Sys2Proof/Machine/Commands.lean ====
section
/-! DEFINITION. The meanings of the commands (spec/42_commands.md R171 to R178): steps 3 and 4 of the decode
order of R84, and for ENQ and WRDISP the part of step 2 that depends on `LEN`. -/

namespace Sys2Proof.Machine

/-- ENQ (R171). -/
def execEnq (len : BitVec 3) (b : Vector Byte 7) (s : State) : Answer :=
  if !lanesZeroFrom len.toNat b then .next (s.raise .errIllegal)
  else if len = 0 then .next (s.raise .errLen)
  else submit (.one (rawFrame len b)) s

/-- WRDISP (R172): with c = 7 every segment lane is in use, so no lane is checked (R83). -/
def execWrdisp (c : BitVec 3) (a : Byte) (segs : Vector Byte 6) (s : State) : Answer :=
  if !lanesZeroFrom c.toNat segs then .next (s.raise .errIllegal)
  else if c = 7 then .next (s.raise .errLen)
  else submit (.two (Frame.of [dataCmdAuto]) (displayFrame c a segs)) s

/-- WRSEG (R173). -/
def execWrseg (a seg : Byte) (s : State) : Answer :=
  submit (.two (Frame.of [s.params.dataCmdFixed]) (Frame.of [addressByte a, seg])) s

/-- BRIGHT (R174). -/
def execBright (lvl : BitVec 3) (s : State) : Answer :=
  submit (.two (Frame.of [dataCmdAuto]) (Frame.of [brightnessByte lvl])) s

/-- DON (R175). -/
def execDon (s : State) : Answer :=
  submit (.two (Frame.of [dataCmdAuto]) (Frame.of [s.params.displayOnByte])) s

/-- DOFF (R176). -/
def execDoff (s : State) : Answer :=
  submit (.two (Frame.of [dataCmdAuto]) (Frame.of [s.params.displayOffByte])) s

/-- ACKRC (R177): the value read is the one before the clear. -/
def execAckrc (s : State) : Answer :=
  .next ({ s with ackMiss := 0 }.respond .ok (ackClean s) 0)

/-- STAT (R178): `DATA` = `STATUS[31:3]`, so the response word is `STATUS`. -/
def execStat (s : State) : Answer :=
  .next (s.respond .ok false ((status s).extractLsb' 3 29))

/-- WRBYTE b, which expands to `ENQ b` (R86). -/
def execWrbyte (b : Byte) (s : State) : Answer := submit (.one (Frame.of [b])) s

end Sys2Proof.Machine
end

