-- ==== Sys2Proof/Machine/Sequencer.lean ====
section
/-! DEFINITION. The meanings of the micro-steps (spec/41_sequencer.md R132 to R146). Each is the effect of the
micro-step alone: the gate (R210) and the decode of {`PHASE`, `SUB`} (R130) stand in Machine/Ports.lean
(log entry 16). -/

namespace Sys2Proof.Machine

/-- The frame just dequeued becomes the current frame (R132). `REM` has 3 bits (log entry 12). -/
def State.loadFrame (f : Frame) (s : State) : State :=
  { s with curLen := f.len, curB := f.b, bptr := 0, rem := f.len - 1 }

/-- U_IDLE (R132 when the queue holds a frame, R133 when it is empty). -/
def execUIdle (s : State) : Answer :=
  match qDeq s with
  | .error r => .fault r
  | .ok (none, s1) => .next s1
  | .ok (some f, s1) => .next ((s1.loadFrame f).enterPhase START)

/-- U_START0 (R134). -/
def execUStart0 (s : State) : Answer := .next (((s.driveDio true).driveClk true).setSub 1)

/-- U_START1 (R135): the start condition. -/
def execUStart1 (s : State) : Answer := .next ((s.driveDio false).setSub 2)

/-- U_START2 (R136). -/
def execUStart2 (s : State) : Answer := .next ((s.driveClk false).enterPhase WRITEBIT)

/-- U_WBIT (R137): bit k of the current byte, bit 0 first. There is no `CUR_B[7]` (log entry 6). -/
def execUWbit (k : BitVec 3) (s : State) : Answer :=
  match s.curB[s.bptr.toNat]? with
  | none => .fault .noSuchPayloadByte
  | some x =>
    .next ((((s.driveClk false).driveDio (x.getLsbD k.toNat)).driveClk true).setSub (k.setWidth 4 + 1))

/-- U_WPREP (R138): release the data line for the acknowledgment. -/
def execUWprep (s : State) : Answer := .next (((s.driveClk false).driveDio true).setSub 9)

/-- U_WCLKH (R139): open the ack window. -/
def execUWclkh (s : State) : Answer := .next ((s.driveClk true).enterPhase READACK)

/-- Count one missed acknowledgment when the sampled level is 1 (R140, R234). -/
def State.countMiss (a : Bool) (s : State) : State :=
  if a then { s with ackMiss := satInc s.ackMiss } else s

/-- U_ACKS (R140). -/
def execUAcks (s : State) : Answer :=
  .next ((s.sample.2.countMiss s.sample.1).setSub 1)

/-- U_ACKE (R141). `BPTR` has 3 bits (log entry 12). -/
def execUAcke (s : State) : Answer :=
  if s.rem ≠ 0 then
    .next ({ s.driveClk false with rem := s.rem - 1, bptr := s.bptr + 1 }.enterPhase WRITEBIT)
  else .next ((s.driveClk false).enterPhase STOP)

/-- U_STOP0 (R142). -/
def execUStop0 (s : State) : Answer := .next ((s.driveClk false).setSub 1)

/-- U_STOP1 (R143). -/
def execUStop1 (s : State) : Answer := .next ((s.driveDio false).setSub 2)

/-- U_STOP2 (R144). -/
def execUStop2 (s : State) : Answer := .next ((s.driveClk true).setSub 3)

/-- U_STOP3 (R145): the stop condition. -/
def execUStop3 (s : State) : Answer := .next ((s.driveDio true).enterPhase DONE)

/-- U_DONE (R146): the emptiness test and the stop are one transaction. -/
def execUDone (s : State) : Answer :=
  if isEmpty s then .next (s.enterPhase IDLE).timerStop else .next (s.enterPhase IDLE)

end Sys2Proof.Machine
end

