-- ==== Sys2Proof/Machine/Dispatch.lean ====
section
/-! DEFINITION. One arm for each instruction: which meaning it has. -/

namespace Sys2Proof.Machine

/-- The effect of one instruction. -/
def exec (i : Instr) (s : State) : Host.Outcome State Fault Refusal :=
  match i with
  | .enq len b => Sys2Proof.Machine.execEnq len b s
  | .wrdisp c a segs => Sys2Proof.Machine.execWrdisp c a segs s
  | .wrseg a seg => Sys2Proof.Machine.execWrseg a seg s
  | .bright lvl => Sys2Proof.Machine.execBright lvl s
  | .don => Sys2Proof.Machine.execDon s
  | .doff => Sys2Proof.Machine.execDoff s
  | .ackrc => Sys2Proof.Machine.execAckrc s
  | .stat => Sys2Proof.Machine.execStat s
  | .wrbyte b => Sys2Proof.Machine.execWrbyte b s
  | .uIdle => Sys2Proof.Machine.execUIdle s
  | .uStart0 => Sys2Proof.Machine.execUStart0 s
  | .uStart1 => Sys2Proof.Machine.execUStart1 s
  | .uStart2 => Sys2Proof.Machine.execUStart2 s
  | .uWbit k => Sys2Proof.Machine.execUWbit k s
  | .uWprep => Sys2Proof.Machine.execUWprep s
  | .uWclkh => Sys2Proof.Machine.execUWclkh s
  | .uAcks => Sys2Proof.Machine.execUAcks s
  | .uAcke => Sys2Proof.Machine.execUAcke s
  | .uStop0 => Sys2Proof.Machine.execUStop0 s
  | .uStop1 => Sys2Proof.Machine.execUStop1 s
  | .uStop2 => Sys2Proof.Machine.execUStop2 s
  | .uStop3 => Sys2Proof.Machine.execUStop3 s
  | .uDone => Sys2Proof.Machine.execUDone s

end Sys2Proof.Machine
end

