-- ==== Sys2Proof/Machine/Ports.lean ====
section
/-! DEFINITION. The three transactions of the block (spec/00_scope.md R10): a command (R170), a tick through the
gate (R210, R130) and a reset (R260). -/

namespace Sys2Proof.Machine

/-- A command transaction (R170): a word that is no instruction answers `ERR_ILLEGAL` and writes nothing. -/
def commandTransaction (w : CommandWord) (s : State) : Answer :=
  match decodeCommand w with
  | .ok i => exec i s
  | .error _ => .next (s.raise .errIllegal)

/-- A tick (R210): dropped while the gate is closed, else the one micro-step that R100 names for `U` (R130), with
the data line at the level `a`. -/
def tickTransaction (a : Bool) (s : State) : Answer :=
  if s.timerOn = false then .next s
  else match decodeMicro (microState s) with
    | .ok i => exec i { s with dioIn := a }
    | .error _ => .fault .unreachableMicroState

/-- One port event, one transaction. Where the response of a command goes is recorded beside it (R242). -/
def transact : PortEvent → State → Answer
  | .reset, s => .next (resetTransaction s)
  | .command r, s => commandTransaction r.word { s with issuers := s.issuers ++ [r.producer] }
  | .tick a, s => tickTransaction a s

/-- An instant at which the first producer issues one command word and nothing else arrives. -/
def Instant.ofCommand (w : CommandWord) : Instant := { reset := false, commands := [⟨0, w⟩], tick := none }

/-- An instant at which one tick arrives, the data line at `a`, and nothing else. -/
def Instant.ofTick (a : Bool) : Instant := { reset := false, commands := [], tick := some a }

end Sys2Proof.Machine
end

