-- ==== Sys2Proof/Machine/Step.lean ====
section
/-! DEFINITION. The step: the block takes the next event at its ports, as one transaction. -/

namespace Sys2Proof.Machine

/-- One transaction (R70). While nothing arrives the block waits: its state stays (R261; log entry 7). -/
def step (s : State) : Host.Outcome State Fault Refusal :=
  match upcoming s with
  | none => .next s
  | some (e, rest) => transact e { s with arrivals := rest, taken := s.taken + 1 }

/-- `s` with the instruction whose table word is `w` as the very next one. A command word (more than 8 bits) is
presented alone on CMD. A micro-state has no port: `PHASE` and `SUB` become the code's, the gate is open, and a
tick arrives with the data line at its present level (log entry 17). -/
def State.withFetchWord (s : State) (nbits w : Nat) : State :=
  if nbits ≤ 8 then
    { s with
      phase := phaseField (BitVec.ofNat 7 w)
      sub := subField (BitVec.ofNat 7 w)
      timerOn := true
      arrivals := Instant.ofTick s.dioIn :: s.arrivals }
  else { s with arrivals := Instant.ofCommand (BitVec.ofNat 64 w) :: s.arrivals }

end Sys2Proof.Machine
end

