-- ==== Sys2Proof/Safety.lean ====
section
/-! DEFINITION. The terms the statements use: the invariants of spec/10_state.md R36, reachable states, the
queue's contents, what a command word asks for by the tables of spec/30_encoding.md (written from those tables
and not from the decoder), the state a command leaves, and the line events of a frame
(spec/41_sequencer.md R148). -/

namespace Sys2Proof.Machine

/-! ### Invariants -/

/-- The parameters are legal (R6) and both indices name a slot (R25). -/
abbrev QueueOk (s : State) : Prop := s.params.Legal ∧ s.head < s.params.n ∧ s.tail < s.params.n

/-- `HEAD` and `TAIL` hold `IDXW` bits (R6, R20). -/
abbrev IndicesFit (s : State) : Prop :=
  s.head < 2 ^ idxWidth s.params.n ∧ s.tail < 2 ^ idxWidth s.params.n

/-- The legal `SUB` values of each phase (R22). -/
abbrev LegalPosition (p : BitVec 3) (k : BitVec 4) : Prop :=
  (p = IDLE ∧ k = 0) ∨ (p = START ∧ k ≤ 2) ∨ (p = WRITEBIT ∧ k ≤ 9) ∨ (p = READACK ∧ k ≤ 1) ∨
    (p = STOP ∧ k ≤ 3) ∨ (p = DONE ∧ k = 0)

/-- A frame is being sent: `PHASE` is `START`, `WRITEBIT`, `READACK` or `STOP`. -/
abbrev Sending (s : State) : Prop :=
  s.phase = START ∨ s.phase = WRITEBIT ∨ s.phase = READACK ∨ s.phase = STOP

/-- A frame record as an enqueue writes it (R62): at least one byte (three bits hold no more than 7), and 0 in
the bytes above `len`. -/
abbrev Frame.Legal (f : Frame) : Prop := f.len ≠ 0 ∧ LanesZeroFrom f.len.toNat f.b

/-- The line levels at each micro-state. DEDUCED from R132 to R146 and R260 (log entry 22); R36 item 6 needs it
to be kept by every step. -/
abbrev LineLevels (s : State) : Prop :=
  (s.phase = IDLE ∨ s.phase = READACK ∨ s.phase = DONE → s.clkOut = true ∧ s.dioOut = true) ∧
  (s.phase = START → s.clkOut = true ∧ s.dioOut = decide (s.sub ≠ 2)) ∧
  (s.phase = WRITEBIT → s.clkOut = decide (1 ≤ s.sub ∧ s.sub ≤ 8) ∧ (s.sub = 9 → s.dioOut = true)) ∧
  (s.phase = STOP → s.clkOut = decide (s.sub = 3) ∧ s.dioOut = decide (s.sub ≤ 1))

/-- The record in the j-th place of the queue, counted from `TAIL` modulo `N`. -/
def slotAt (s : State) (j : Nat) : Option Frame := s.q.read ((s.tail + j) % s.params.n)

/-- R36, and what makes it a step's invariant: the line levels, the canonical form of the slot file and R62. -/
structure BlockInv (s : State) : Prop where
  /-- R6. -/
  params_legal : s.params.Legal
  /-- R36 item 1. -/
  position : LegalPosition s.phase s.sub
  /-- R36 item 2. -/
  head_lt : s.head < s.params.n
  /-- R36 item 2. -/
  tail_lt : s.tail < s.params.n
  /-- R36 item 3. -/
  idle_when_off : s.timerOn = false → s.phase = IDLE ∧ isEmpty s = true
  /-- R36 item 4. -/
  busy_when_on : s.timerOn = true → s.phase ≠ IDLE ∨ isEmpty s = false
  /-- R36 item 5. -/
  current_frame : Sending s → 1 ≤ s.curLen.toNat ∧ s.bptr.toNat + s.rem.toNat = s.curLen.toNat - 1
  /-- R36 item 6. -/
  ack_window : s.phase = READACK → s.sub = 0 → s.dioOut = true ∧ s.clkOut = true
  /-- R36 item 7. -/
  queued : ∀ j < count s, ∃ f, slotAt s j = some f ∧ 1 ≤ f.len.toNat
  /-- The levels of both lines at each micro-state. -/
  lines : LineLevels s
  /-- The canonical form of the slot file. -/
  slots_wf : s.q.wf
  /-- Every written slot exists and holds a frame as R62 lays it out. -/
  slots_legal : ∀ e ∈ s.q, e.1 < s.params.n ∧ e.2.Legal

/-! ### Runs -/

/-- `k` steps, stopping at the first fault or refusal. -/
def run : Nat → State → Answer
  | 0, s => .next s
  | k + 1, s =>
    match step s with
    | .next t => run k t
    | .fault r => .fault r
    | .refused r => .refused r

/-- The reset state of a block with these parameters and these arrivals to come. -/
def State.boot (p : Params) (arrivals : List Instant) : State :=
  { State.reset with params := p, arrivals := arrivals }

/-- Reached from reset, for some legal parameters, whatever arrives at the ports. -/
inductive Reachable : State → Prop where
  | boot (p : Params) (arrivals : List Instant) : p.Legal → Reachable (State.boot p arrivals)
  | after (s t : State) : Reachable s → step s = .next t → Reachable t

/-- Ticks at the first `k` instants, the data line at `lvl i` at the i-th. -/
def ticks (k : Nat) (lvl : Nat → Bool) : List Instant :=
  (List.range k).map fun i => Instant.ofTick (lvl i)

/-! ### The queue -/

/-- The queued frames, first out first. -/
def contents (s : State) : List Frame :=
  (List.range (count s)).map fun j => (slotAt s j).getD (Frame.of [])

/-- Ticks that a queue of frames takes: 12n + 9 for a frame of n bytes (R148, R215). -/
def drainTicks (fs : List Frame) : Nat := (fs.map fun f => 12 * f.len.toNat + 9).sum

/-- The words that producer `k` has still to be answered, in the order it issues them (R243). -/
def issuedBy (k : Nat) (arrivals : List Instant) : List CommandWord :=
  ((arrivals.flatMap Instant.commands).filter fun r => r.producer == k).map Request.word

/-! ### What a command word asks for (R80 to R85) -/

/-- Step 1 of R84: `OP` is 0x0 or 0x9..0xF. -/
def reservedOp (w : CommandWord) : Bool := w.extractLsb' 0 4 == 0 || 9 ≤ (w.extractLsb' 0 4).toNat

/-- Step 2 of R84: `Z` = 1 or a bit of a field that R83 marks `0` is 1. The lanes above the last one in use are
the bits above it; the masks are the other rows' masks of the opcode table, less `OP`. -/
def reservedBitSet (w : CommandWord) : Bool :=
  match (w.extractLsb' 0 4).toNat with
  | 1 => w.getLsbD 7 || w >>> (8 * (w.extractLsb' 4 3).toNat + 8) != 0
  | 2 => w.getLsbD 7 || w >>> (8 * (w.extractLsb' 4 3).toNat + 16) != 0
  | 3 => w &&& 0xFFFFFFFFFF0000F0 != 0
  | 4 => w &&& 0xFFFFFFFFFFFFF8F0 != 0
  | _ => w &&& 0xFFFFFFFFFFFFFFF0 != 0

/-- Step 3 of R84: ENQ with `LEN` = 0 or WRDISP with `LEN` = 7 (R83, R232). -/
def illegalLength (w : CommandWord) : Bool :=
  (w.extractLsb' 0 4 == 1 && w.extractLsb' 4 3 == 0) || (w.extractLsb' 0 4 == 2 && w.extractLsb' 4 3 == 7)

/-- How many frames the opcode enqueues (R182, R231). -/
def framesAsked (w : CommandWord) : Nat :=
  match (w.extractLsb' 0 4).toNat with
  | 1 => 1
  | 2 | 3 | 4 | 5 | 6 => 2
  | _ => 0

/-- Lane `B<k>` of a command word (R80). -/
def laneOf (w : CommandWord) (k : Nat) : Byte := w.extractLsb' (8 * k + 8) 8

/-- The frames of a legal command word (R171 to R176); the lanes above the ones in use are 0 in it. -/
def framesOf (p : Params) (w : CommandWord) : List Frame :=
  let len := w.extractLsb' 4 3
  let auto : Frame := ⟨1, #v[0x40, 0, 0, 0, 0, 0, 0]⟩
  match (w.extractLsb' 0 4).toNat with
  | 1 => [⟨len, #v[laneOf w 0, laneOf w 1, laneOf w 2, laneOf w 3, laneOf w 4, laneOf w 5, laneOf w 6]⟩]
  | 2 => [auto, ⟨len + 1,
      #v[0xC0 ||| laneOf w 0, laneOf w 1, laneOf w 2, laneOf w 3, laneOf w 4, laneOf w 5, laneOf w 6]⟩]
  | 3 => [⟨1, #v[p.dataCmdFixed, 0, 0, 0, 0, 0, 0]⟩, ⟨2, #v[0xC0 ||| laneOf w 0, laneOf w 1, 0, 0, 0, 0, 0]⟩]
  | 4 => [auto, ⟨1, #v[0x88 ||| laneOf w 0, 0, 0, 0, 0, 0, 0]⟩]
  | 5 => [auto, ⟨1, #v[p.displayOnByte, 0, 0, 0, 0, 0, 0]⟩]
  | 6 => [auto, ⟨1, #v[p.displayOffByte, 0, 0, 0, 0, 0, 0]⟩]
  | _ => []

/-- The response code the decode order of R84 gives: the first failing check. -/
def expectedCode (w : CommandWord) (s : State) : RspCode :=
  if reservedOp w || reservedBitSet w then .errIllegal
  else if illegalLength w then .errLen
  else if free s < framesAsked w then .errFull
  else .ok

/-- `CODE`, bits [1:0] of a response (R90). -/
def codeOf (r : ResponseWord) : BitVec 2 := r.extractLsb' 0 2

/-! ### The state a command leaves -/

/-- One more response, nothing else changed. -/
def answered (s : State) (r : ResponseWord) : State := { s with responses := s.responses ++ [r] }

/-- A command has enqueued: the slot file and `HEAD` as given, the timer started when the machine was idle with
the timer off (R211), the response 0, nothing else changed (R170). -/
def accepted (s : State) (q : Memory) (head : Nat) : State :=
  { s with
    q := q
    head := head
    timerOn := s.timerOn || s.phase == IDLE
    trace := if s.phase = IDLE ∧ s.timerOn = false then s.trace ++ [.tmrStart] else s.trace
    responses := s.responses ++ [0] }

/-- Two frames written to `HEAD` and the slot after it. -/
def acceptedTwo (s : State) (f1 f2 : Frame) : State :=
  accepted s ((s.q.write s.head f1).write (inc s.params.n s.head) f2) (inc s.params.n (inc s.params.n s.head))

/-! ### The wire -/

/-- Events of one payload byte: 8 bits, least significant first, the release, the ack window with the sampled
level `a`, and the clock low again (R137 to R141). -/
def byteEvents (x : Byte) (a : Bool) : List Event :=
  ((List.range 8).flatMap fun k => [.clk false, .dio (x.getLsbD k), .clk true])
    ++ [.clk false, .dio true, .clk true, .smp a, .clk false]

/-- Events of one frame (R148), each byte with the level sampled after it. -/
def frameEvents (bytes : List (Byte × Bool)) : List Event :=
  [.dio true, .clk true, .dio false, .clk false]
    ++ (bytes.flatMap fun x => byteEvents x.1 x.2)
    ++ [.clk false, .dio false, .clk true, .dio true]

/-- The payload bytes of a frame: `b[0]` first, `len` of them (R62). -/
def Frame.payload (f : Frame) : List Byte := f.b.toList.take f.len.toNat

/-- A `Clk` or `Dio` event. -/
def Event.isDrive : Event → Bool
  | .clk _ => true
  | .dio _ => true
  | .smp _ => false
  | .tmrStart => false
  | .tmrStop => false

/-- The drive events of one frame: those of R148 without the samples. -/
def Frame.drives (f : Frame) : List Event :=
  (frameEvents (f.payload.map fun x => (x, false))).filter Event.isDrive

/-- The timer-control events of a trace: `true` for `TmrStart`, `false` for `TmrStop`. -/
def strobes (es : List Event) : List Bool :=
  es.filterMap fun
    | .tmrStart => some true
    | .tmrStop => some false
    | .clk _ => none
    | .dio _ => none
    | .smp _ => none

/-- What a device sees on the two lines beside bits (R135, R145). -/
inductive Condition where
  | start
  | stop
deriving DecidableEq, Repr

/-- The start and stop conditions in a list of events, from the levels `clk`, `dio` on: the data line falls,
or rises, while the clock is high. -/
def conditions (clk dio : Bool) : List Event → List Condition
  | [] => []
  | .clk v :: es => conditions v dio es
  | .dio v :: es =>
    (if clk && dio && !v then [Condition.start] else if clk && !dio && v then [Condition.stop] else [])
      ++ conditions clk v es
  | .smp _ :: es => conditions clk dio es
  | .tmrStart :: es => conditions clk dio es
  | .tmrStop :: es => conditions clk dio es

/-- The trace with every sampled level replaced by 0. -/
def forgetSamples (es : List Event) : List Event :=
  es.map fun
    | .smp _ => .smp false
    | .clk v => .clk v
    | .dio v => .dio v
    | .tmrStart => .tmrStart
    | .tmrStop => .tmrStop

/-- The instruction is a micro-step, not a command. -/
def isMicroStep (i : Instr) : Bool :=
  match encode i with
  | .micro _ => true
  | .command _ => false

end Sys2Proof.Machine
end

