-- ==== Sys2Proof/Certificates/Slice0/Obligations.lean ====
section
/-! DEFINITION. The statements for the provers. Each docstring names the rules of spec/ it comes from. -/

open Sys2Proof Sys2Proof.Machine

/-! ### Encodings -/

/-- Every instruction the assembler syntax can write, with every operand value, is read back from its own word
(R80, R83, R86, R100); `ENQ b` with one byte is read back as `WRBYTE b`, which has the same word (R86; the choice
between the two spellings is the model's, log entry 14). -/
def Obligations.EncodedInstructionDecodesBack : Prop :=
  ∀ i : Instr, i.WellFormed → decode (encode i) = .ok i.canonical

/-- The other direction: a word that decodes is the word of what it decodes to, so no bit of a legal word is
dropped (R80 to R85, R100). -/
def Obligations.DecodedWordEncodesBack : Prop :=
  (∀ (w : CommandWord) (i : Instr), decodeCommand w = .ok i → encode i = .command w) ∧
  (∀ (u : MicroCode) (i : Instr), decodeMicro u = .ok i → encode i = .micro u)

/-- The worked encodings of R87, line by line, in both directions; that 0x4011 is read back as `WRBYTE 0x40` and
not as `ENQ 0x40` is the model's choice (log entry 14). -/
def Obligations.WorkedEncodingsOfTheSpec : Prop :=
  (encode (.wrbyte 0x40) = .command 0x0000000000004011 ∧
    encode (.enq 1 #v[0x40, 0, 0, 0, 0, 0, 0]) = .command 0x0000000000004011 ∧
    decodeCommand 0x0000000000004011 = .ok (.wrbyte 0x40)) ∧
  (encode (.enq 3 #v[0xC0, 0x3F, 0x06, 0, 0, 0, 0]) = .command 0x00000000063FC031 ∧
    decodeCommand 0x00000000063FC031 = .ok (.enq 3 #v[0xC0, 0x3F, 0x06, 0, 0, 0, 0])) ∧
  (encode (.wrdisp 2 0xC0 #v[0x3F, 0x06, 0, 0, 0, 0]) = .command 0x00000000063FC022 ∧
    decodeCommand 0x00000000063FC022 = .ok (.wrdisp 2 0xC0 #v[0x3F, 0x06, 0, 0, 0, 0])) ∧
  (encode (.wrdisp 0 0xC0 #v[0, 0, 0, 0, 0, 0]) = .command 0x000000000000C002 ∧
    decodeCommand 0x000000000000C002 = .ok (.wrdisp 0 0xC0 #v[0, 0, 0, 0, 0, 0])) ∧
  (encode (.wrseg 0xC1 0x06) = .command 0x000000000006C103 ∧
    decodeCommand 0x000000000006C103 = .ok (.wrseg 0xC1 0x06)) ∧
  (encode (.bright 5) = .command 0x0000000000000504 ∧ decodeCommand 0x0000000000000504 = .ok (.bright 5)) ∧
  (encode .don = .command 0x0000000000000005 ∧ decodeCommand 0x0000000000000005 = .ok .don) ∧
  (encode .doff = .command 0x0000000000000006 ∧ decodeCommand 0x0000000000000006 = .ok .doff) ∧
  (encode .ackrc = .command 0x0000000000000007 ∧ decodeCommand 0x0000000000000007 = .ok .ackrc) ∧
  (encode .stat = .command 0x0000000000000008 ∧ decodeCommand 0x0000000000000008 = .ok .stat) ∧
  (encode (.enq 7 #v[1, 2, 3, 4, 5, 6, 7]) = .command 0x0706050403020171 ∧
    decodeCommand 0x0706050403020171 = .ok (.enq 7 #v[1, 2, 3, 4, 5, 6, 7]))

/-- The table of R100: each listed micro-state is its micro-step, `U` is {`PHASE`, `SUB`}, and a micro-state that
R100 does not list is none. -/
def Obligations.MicroStateTable : Prop :=
  decodeMicro 0b0000000 = .ok .uIdle ∧
  decodeMicro 0b0010000 = .ok .uStart0 ∧
  decodeMicro 0b0010001 = .ok .uStart1 ∧
  decodeMicro 0b0010010 = .ok .uStart2 ∧
  (∀ k : BitVec 3, decodeMicro (0b0100#4 ++ k) = .ok (.uWbit k)) ∧
  decodeMicro 0b0101000 = .ok .uWprep ∧
  decodeMicro 0b0101001 = .ok .uWclkh ∧
  decodeMicro 0b0110000 = .ok .uAcks ∧
  decodeMicro 0b0110001 = .ok .uAcke ∧
  decodeMicro 0b1000000 = .ok .uStop0 ∧
  decodeMicro 0b1000001 = .ok .uStop1 ∧
  decodeMicro 0b1000010 = .ok .uStop2 ∧
  decodeMicro 0b1000011 = .ok .uStop3 ∧
  decodeMicro 0b1010000 = .ok .uDone ∧
  (∀ u : MicroCode, ¬ LegalPosition (u.extractLsb' 4 3) (u.extractLsb' 0 4) →
    decodeMicro u = .error .reservedMicroState) ∧
  (∀ s : State, (microState s).extractLsb' 4 3 = s.phase ∧ (microState s).extractLsb' 0 4 = s.sub)

/-! ### Checks of a command word -/

/-- R85 and R179: a reserved opcode, `Z` = 1 or a non-zero bit in a field R83 marks `0` is answered with
`ERR_ILLEGAL` and changes no state, in every state of the block; no other word is; the all-zero word is illegal. -/
def Obligations.IllegalWordsAreRejected : Prop :=
  (∀ (w : CommandWord) (s : State), reservedOp w = true ∨ reservedBitSet w = true →
    commandTransaction w s = .next (answered s 3)) ∧
  (∀ (w : CommandWord) (s : State), QueueOk s → reservedOp w = false → reservedBitSet w = false →
    ∃ t r, commandTransaction w s = .next t ∧ t.responses = s.responses ++ [r] ∧ codeOf r ≠ 3) ∧
  reservedOp 0 = true

/-- R84 with R90: the response code is that of the first failing check, reserved opcode, reserved fields,
length, free space, and `OK` when none fails; with a code other than 0 the bits [31:2] are 0. -/
def Obligations.FirstFailingCheckGivesTheCode : Prop :=
  ∀ (w : CommandWord) (s : State), QueueOk s →
    ∃ t r, commandTransaction w s = .next t ∧ t.responses = s.responses ++ [r] ∧
      codeOf r = (expectedCode w s).bits ∧ (codeOf r ≠ 0 → r.extractLsb' 2 30 = 0)

/-- R181: a command that fails leaves every register, every slot and the trace as they were, in every state; the
two-frame commands with one slot free are such commands. -/
def Obligations.FailedCommandChangesNothing : Prop :=
  (∀ (w : CommandWord) (s t : State) (r : ResponseWord), commandTransaction w s = .next t →
    t.responses = s.responses ++ [r] → codeOf r ≠ 0 → t = answered s r) ∧
  (∀ (w : CommandWord) (s : State), QueueOk s → free s = 1 → framesAsked w = 2 → reservedBitSet w = false →
    illegalLength w = false → commandTransaction w s = .next (answered s 1))

/-! ### The commands -/

/-- ENQ (R171): the frame of the `LEN` payload bytes goes to the slot `HEAD`, `HEAD` moves on, the timer is
woken when the machine is idle, the response is `OK`; or the error and nothing else. -/
def Obligations.EnqEnqueuesOneFrame : Prop :=
  ∀ (len : BitVec 3) (b : Vector Byte 7) (s : State), QueueOk s →
    (len ≠ 0 → LanesZeroFrom len.toNat b → 1 ≤ free s →
      exec (.enq len b) s = .next (accepted s (s.q.write s.head ⟨len, b⟩) (inc s.params.n s.head))) ∧
    (¬ LanesZeroFrom len.toNat b → exec (.enq len b) s = .next (answered s 3)) ∧
    (LanesZeroFrom len.toNat b → len = 0 → exec (.enq len b) s = .next (answered s 2)) ∧
    (LanesZeroFrom len.toNat b → len ≠ 0 → free s = 0 → exec (.enq len b) s = .next (answered s 1)) ∧
    (∀ w : CommandWord, w.extractLsb' 0 4 = 1 → w.getLsbD 7 = true →
      commandTransaction w s = .next (answered s 3))

/-- WRDISP (R172): frame(1, [0x40]) and frame(c + 1, [0xC0 | a, B1, ..., Bc]) in adjacent slots, or the error and
nothing else; with c = 7 no lane is checked. -/
def Obligations.WrdispEnqueuesCommandAndDisplayFrame : Prop :=
  ∀ (c : BitVec 3) (a : Byte) (segs : Vector Byte 6) (s : State), QueueOk s →
    (c ≠ 7 → LanesZeroFrom c.toNat segs → 2 ≤ free s →
      exec (.wrdisp c a segs) s = .next (acceptedTwo s ⟨1, #v[0x40, 0, 0, 0, 0, 0, 0]⟩
        ⟨c + 1, #v[0xC0 ||| a, segs[0], segs[1], segs[2], segs[3], segs[4], segs[5]]⟩)) ∧
    (¬ LanesZeroFrom c.toNat segs → exec (.wrdisp c a segs) s = .next (answered s 3)) ∧
    (c = 7 → exec (.wrdisp c a segs) s = .next (answered s 2)) ∧
    (c ≠ 7 → LanesZeroFrom c.toNat segs → free s < 2 →
      exec (.wrdisp c a segs) s = .next (answered s 1)) ∧
    (∀ w : CommandWord, w.extractLsb' 0 4 = 2 → w.getLsbD 7 = true →
      commandTransaction w s = .next (answered s 3))

/-- WRSEG (R173): frame(1, [DATA_CMD_FIXED]) and frame(2, [0xC0 | a, s]), or the error and nothing else. -/
def Obligations.WrsegEnqueuesFixedAddressFrames : Prop :=
  ∀ (a seg : Byte) (s : State), QueueOk s →
    (2 ≤ free s →
      exec (.wrseg a seg) s = .next (acceptedTwo s ⟨1, #v[s.params.dataCmdFixed, 0, 0, 0, 0, 0, 0]⟩
        ⟨2, #v[0xC0 ||| a, seg, 0, 0, 0, 0, 0]⟩)) ∧
    (free s < 2 → exec (.wrseg a seg) s = .next (answered s 1)) ∧
    (∀ w : CommandWord, w.extractLsb' 0 4 = 3 → w &&& 0xFFFFFFFFFF0000F0 ≠ 0 →
      commandTransaction w s = .next (answered s 3))

/-- BRIGHT (R174): frame(1, [0x40]) and frame(1, [0x88 | lvl]), or the error and nothing else. -/
def Obligations.BrightEnqueuesBrightnessFrames : Prop :=
  ∀ (lvl : BitVec 3) (s : State), QueueOk s →
    (2 ≤ free s →
      exec (.bright lvl) s = .next (acceptedTwo s ⟨1, #v[0x40, 0, 0, 0, 0, 0, 0]⟩
        ⟨1, #v[0x88 ||| lvl.setWidth 8, 0, 0, 0, 0, 0, 0]⟩)) ∧
    (free s < 2 → exec (.bright lvl) s = .next (answered s 1)) ∧
    (∀ w : CommandWord, w.extractLsb' 0 4 = 4 → w &&& 0xFFFFFFFFFFFFF8F0 ≠ 0 →
      commandTransaction w s = .next (answered s 3))

/-- DON (R175): frame(1, [0x40]) and frame(1, [DISPLAY_ON_BYTE]), or the error and nothing else. -/
def Obligations.DonEnqueuesDisplayOnFrames : Prop :=
  ∀ s : State, QueueOk s →
    (2 ≤ free s →
      exec .don s = .next (acceptedTwo s ⟨1, #v[0x40, 0, 0, 0, 0, 0, 0]⟩
        ⟨1, #v[s.params.displayOnByte, 0, 0, 0, 0, 0, 0]⟩)) ∧
    (free s < 2 → exec .don s = .next (answered s 1)) ∧
    (∀ w : CommandWord, w.extractLsb' 0 4 = 5 → w ≠ 5 → commandTransaction w s = .next (answered s 3))

/-- DOFF (R176): frame(1, [0x40]) and frame(1, [DISPLAY_OFF_BYTE]), or the error and nothing else. -/
def Obligations.DoffEnqueuesDisplayOffFrames : Prop :=
  ∀ s : State, QueueOk s →
    (2 ≤ free s →
      exec .doff s = .next (acceptedTwo s ⟨1, #v[0x40, 0, 0, 0, 0, 0, 0]⟩
        ⟨1, #v[s.params.displayOffByte, 0, 0, 0, 0, 0, 0]⟩)) ∧
    (free s < 2 → exec .doff s = .next (answered s 1)) ∧
    (∀ w : CommandWord, w.extractLsb' 0 4 = 6 → w ≠ 6 → commandTransaction w s = .next (answered s 3))

/-- WRBYTE b expands to `ENQ b` (R86): the same word, the same effect in every state, and with room in the queue
the frame(1, [b]) of R171. -/
def Obligations.WrbyteIsEnqOfOneByte : Prop :=
  ∀ (b : Byte) (s : State),
    encode (.wrbyte b) = encode (.enq 1 #v[b, 0, 0, 0, 0, 0, 0]) ∧
    exec (.wrbyte b) s = exec (.enq 1 #v[b, 0, 0, 0, 0, 0, 0]) s ∧
    (QueueOk s → 1 ≤ free s →
      exec (.wrbyte b) s =
        .next (accepted s (s.q.write s.head ⟨1, #v[b, 0, 0, 0, 0, 0, 0]⟩) (inc s.params.n s.head)))

/-- ACKRC (R177): it answers whether `ACK_MISS` was 0 and clears it, and changes nothing else; a second one
answers 0x4. -/
def Obligations.AckrcReadsAndClears : Prop :=
  ∀ s : State,
    exec .ackrc s = .next { s with
      ackMiss := 0, responses := s.responses ++ [if s.ackMiss = 0 then 0x00000004 else 0x00000000] } ∧
    (∀ t, exec .ackrc s = .next t → exec .ackrc t = .next (answered t 0x00000004)) ∧
    (∀ w : CommandWord, w.extractLsb' 0 4 = 7 → w ≠ 7 → commandTransaction w s = .next (answered s 3))

/-- STAT (R178): the response is `STATUS` and nothing else changes, so a second one answers the same; right after
reset it is 0x00000048. -/
def Obligations.StatAnswersStatus : Prop :=
  ∀ s : State,
    exec .stat s = .next (answered s (status s)) ∧
    (∀ t, exec .stat s = .next t → exec .stat t = .next (answered t (status s))) ∧
    (∀ p arrivals, Params.Legal p →
      exec .stat (State.boot p arrivals) = .next (answered (State.boot p arrivals) 0x00000048)) ∧
    (∀ w : CommandWord, w.extractLsb' 0 4 = 8 → w ≠ 8 → commandTransaction w s = .next (answered s 3))

/-- R35: every field of `STATUS`, reserved bits included, read by STAT without side effect. -/
def Obligations.StatusFields : Prop :=
  ∀ s : State,
    (status s).extractLsb' 0 2 = 0 ∧
    (status s).getLsbD 2 = false ∧
    (status s).getLsbD 3 = decide (s.head = s.tail) ∧
    (status s).getLsbD 4 = decide (inc s.params.n s.head = s.tail) ∧
    (status s).getLsbD 5 = s.timerOn ∧
    (status s).getLsbD 6 = decide (s.ackMiss = 0) ∧
    (status s).getLsbD 7 = false ∧
    (status s).extractLsb' 8 3 = s.phase ∧
    (status s).getLsbD 11 = false ∧
    (status s).extractLsb' 12 4 = s.sub ∧
    (QueueOk s → ((status s).extractLsb' 16 8).toNat = count s) ∧
    (status s).extractLsb' 24 8 = s.ackMiss ∧
    exec .stat s = .next (answered s (status s))

/-- R182 with R171 to R176: a command that answers `OK` adds exactly the frames of its word at the end of the queue,
one after the other; there are as many as its opcode says, the data command first when there are two. -/
def Obligations.AcceptedCommandAppendsItsFrames : Prop :=
  ∀ (w : CommandWord) (s t : State), QueueOk s → expectedCode w s = .ok → commandTransaction w s = .next t →
    contents t = contents s ++ framesOf s.params w ∧ (framesOf s.params w).length = framesAsked w ∧
      (framesAsked w = 2 → (framesOf s.params w)[0]? = some ⟨1, #v[if w.extractLsb' 0 4 = 3 then s.params.dataCmdFixed else 0x40,
        0, 0, 0, 0, 0, 0]⟩)

/-- The frame of a command (R20, R60): it writes no register of the sequencer, no line and not `TAIL`; `ACK_MISS`
only when it is ACKRC; no slot but the ones it fills; and it answers exactly once (R14). -/
def Obligations.CommandsLeaveTheSequencerAlone : Prop :=
  ∀ (w : CommandWord) (s t : State), commandTransaction w s = .next t →
    t.phase = s.phase ∧ t.sub = s.sub ∧ t.bptr = s.bptr ∧ t.rem = s.rem ∧ t.curLen = s.curLen ∧
    t.curB = s.curB ∧ t.tail = s.tail ∧ t.clkOut = s.clkOut ∧ t.dioOut = s.dioOut ∧ t.dioIn = s.dioIn ∧
    t.params = s.params ∧ t.arrivals = s.arrivals ∧ t.issuers = s.issuers ∧
    t.resets = s.resets ∧ t.taken = s.taken ∧
    (w.extractLsb' 0 4 ≠ 7 → t.ackMiss = s.ackMiss) ∧
    (framesAsked w = 0 → t.q = s.q ∧ t.head = s.head ∧ t.timerOn = s.timerOn ∧ t.trace = s.trace) ∧
    (∀ j, j ≠ s.head → (framesAsked w ≤ 1 ∨ j ≠ inc s.params.n s.head) → t.q.read j = s.q.read j) ∧
    (∃ r, t.responses = s.responses ++ [r])

/-! ### The micro-steps -/

/-- U_IDLE (R132, R133): the frame at `TAIL` becomes the current frame and the phase `START`; with an empty queue
nothing is written, which no reachable state with the timer on shows. In a slot that nothing has written the frame
is a free record, and `REM` is `len` - 1 modulo 8 (the model's choices, log entries 4 and 12). -/
def Obligations.IdleDequeuesOrStays : Prop :=
  ∀ s : State,
    (∀ f, isEmpty s = false → s.tail < s.params.n →
      f = (s.q.read s.tail).getD (Frame.unwritten s.resets s.tail) →
      exec .uIdle s = .next { s with
        tail := inc s.params.n s.tail, curLen := f.len, curB := f.b, bptr := 0, rem := f.len - 1
        phase := START, sub := 0 }) ∧
    (isEmpty s = true → exec .uIdle s = .next s) ∧
    (BlockInv s → s.phase = IDLE → s.timerOn = true → isEmpty s = false)

/-- U_START0, U_START1, U_START2 (R134 to R136); at U_START1 the data line falls with the clock high. -/
def Obligations.StartDrivesTheStartCondition : Prop :=
  ∀ s : State,
    exec .uStart0 s = .next { s with
      dioOut := true, clkOut := true, sub := 1, trace := s.trace ++ [.dio true, .clk true] } ∧
    exec .uStart1 s = .next { s with dioOut := false, sub := 2, trace := s.trace ++ [.dio false] } ∧
    exec .uStart2 s = .next { s with
      clkOut := false, phase := WRITEBIT, sub := 0, trace := s.trace ++ [.clk false] } ∧
    (BlockInv s → s.phase = START → s.sub = 1 → s.clkOut = true ∧ s.dioOut = true)

/-- U_WBIT (R137): bit k of `CUR_B[BPTR]` on the data line between two clock levels. -/
def Obligations.WbitShiftsOneBitOut : Prop :=
  ∀ (k : BitVec 3) (s : State),
    (∀ h : s.bptr.toNat < 7,
      exec (.uWbit k) s = .next { s with
        clkOut := true, dioOut := s.curB[s.bptr.toNat].getLsbD k.toNat, sub := k.setWidth 4 + 1
        trace := s.trace ++ [.clk false, .dio (s.curB[s.bptr.toNat].getLsbD k.toNat), .clk true] }) ∧
    (BlockInv s → Sending s → s.bptr.toNat < 7) ∧
    (BlockInv s → s.phase = WRITEBIT → s.sub = 0 → s.clkOut = false)

/-- U_WPREP and U_WCLKH (R138, R139). -/
def Obligations.WprepReleasesAndWclkhOpensTheAckWindow : Prop :=
  ∀ s : State,
    exec .uWprep s = .next { s with
      clkOut := false, dioOut := true, sub := 9, trace := s.trace ++ [.clk false, .dio true] } ∧
    exec .uWclkh s = .next { s with
      clkOut := true, phase := READACK, sub := 0, trace := s.trace ++ [.clk true] }

/-- U_ACKS (R140): a sampled 1 adds one to `ACK_MISS`, saturating at 255, and nothing else depends on it; the
sample is taken with both outputs at 1. -/
def Obligations.AcksCountsAMiss : Prop :=
  ∀ s : State,
    (∃ m : BitVec 8, m.toNat = (if s.dioIn then min (s.ackMiss.toNat + 1) 255 else s.ackMiss.toNat) ∧
      exec .uAcks s = .next { s with ackMiss := m, sub := 1, trace := s.trace ++ [.smp s.dioIn] }) ∧
    (BlockInv s → s.phase = READACK → s.sub = 0 → s.clkOut = true ∧ s.dioOut = true)

/-- U_ACKE (R141): to the next byte of the frame while one is left, else to `STOP`; `BPTR` has 3 bits, so that 7
is followed by 0, in states that no run reaches (the model's choice, log entry 12). -/
def Obligations.AckeGoesOnOrStops : Prop :=
  ∀ s : State,
    (s.rem ≠ 0 → exec .uAcke s = .next { s with
      clkOut := false, rem := s.rem - 1, bptr := s.bptr + 1, phase := WRITEBIT, sub := 0
      trace := s.trace ++ [.clk false] }) ∧
    (s.rem = 0 → exec .uAcke s = .next { s with
      clkOut := false, phase := STOP, sub := 0, trace := s.trace ++ [.clk false] })

/-- U_STOP0 to U_STOP3 (R142 to R145): the first clock-low changes nothing on the line, the last one is the data
line rising with the clock high, and it leaves both lines high. -/
def Obligations.StopDrivesTheStopCondition : Prop :=
  ∀ s : State,
    exec .uStop0 s = .next { s with clkOut := false, sub := 1, trace := s.trace ++ [.clk false] } ∧
    exec .uStop1 s = .next { s with dioOut := false, sub := 2, trace := s.trace ++ [.dio false] } ∧
    exec .uStop2 s = .next { s with clkOut := true, sub := 3, trace := s.trace ++ [.clk true] } ∧
    exec .uStop3 s = .next { s with
      dioOut := true, phase := DONE, sub := 0, trace := s.trace ++ [.dio true] } ∧
    (BlockInv s → s.phase = STOP → s.sub = 0 → s.clkOut = false) ∧
    (BlockInv s → s.phase = STOP → s.sub = 3 → s.clkOut = true ∧ s.dioOut = false)

/-- U_DONE (R146): back to `IDLE`; the timer stops exactly when the queue is empty. -/
def Obligations.DoneStopsTheTimerWhenEmpty : Prop :=
  ∀ s : State,
    (s.head = s.tail → exec .uDone s = .next { s with
      phase := IDLE, sub := 0, timerOn := false, trace := s.trace ++ [.tmrStop] }) ∧
    (s.head ≠ s.tail → exec .uDone s = .next { s with phase := IDLE, sub := 0 })

/-- R147: an accepted tick in a micro-state outside the table of R100 is a fault; no reachable state is in one. -/
def Obligations.UnlistedMicroStateFaults : Prop :=
  (∀ (a : Bool) (s : State), s.timerOn = true → ¬ LegalPosition s.phase s.sub →
    tickTransaction a s = .fault .unreachableMicroState) ∧
  (∀ s : State, Reachable s → LegalPosition s.phase s.sub)

/-- Where a form stops by name, the model's choice (log entries 5 and 6): there is no `CUR_B[7]` (R24) and no slot
at or above `N` (R26, R61); no state that meets the invariant has such a `BPTR` or index. -/
def Obligations.MissingSlotOrByteFaults : Prop :=
  (∀ (k : BitVec 3) (s : State), s.bptr = 7 → exec (.uWbit k) s = .fault .noSuchPayloadByte) ∧
  (∀ s : State, isEmpty s = false → s.params.n ≤ s.tail → exec .uIdle s = .fault .noSuchSlot) ∧
  (∀ (b : Byte) (s : State), isFull s = false → 1 ≤ free s → s.params.n ≤ s.head →
    exec (.wrbyte b) s = .fault .noSuchSlot) ∧
  (∀ (fs : Batch) (s : State), isFull s = false → fs.size ≤ free s → s.params.n ≤ s.head →
    submit fs s = .fault .noSuchSlot) ∧
  (∀ s : State, BlockInv s → (Sending s → s.bptr ≠ 7) ∧ s.tail < s.params.n ∧ s.head < s.params.n)

/-- The frame of a micro-step (R20, R60, R130): it writes neither the slots nor `HEAD`, gives no response, and
writes each other register only in the micro-steps R20 names; it appends at most three events. -/
def Obligations.MicroStepsLeaveTheQueueSideAlone : Prop :=
  ∀ (i : Instr) (s t : State), isMicroStep i = true → exec i s = .next t →
    t.q = s.q ∧ t.head = s.head ∧ t.responses = s.responses ∧ t.params = s.params ∧
    t.arrivals = s.arrivals ∧ t.issuers = s.issuers ∧ t.dioIn = s.dioIn ∧
    t.resets = s.resets ∧ t.taken = s.taken ∧
    (i ≠ .uIdle → t.tail = s.tail ∧ t.curLen = s.curLen ∧ t.curB = s.curB) ∧
    (i ≠ .uIdle → i ≠ .uAcke → t.bptr = s.bptr ∧ t.rem = s.rem) ∧
    (i ≠ .uAcks → t.ackMiss = s.ackMiss) ∧
    (i ≠ .uDone → t.timerOn = s.timerOn) ∧
    (i = .uIdle ∨ i = .uAcks ∨ i = .uDone → t.clkOut = s.clkOut ∧ t.dioOut = s.dioOut) ∧
    (∃ es, t.trace = s.trace ++ es ∧ es.length ≤ 3)

/-- R149: a sampled level or a count of misses never steers the sequencer. From two states that differ only there,
each micro-step leads to two states that differ only there and in the sampled level the trace shows. -/
def Obligations.AcknowledgmentNeverSteers : Prop :=
  ∀ (i : Instr) (s t : State) (m : BitVec 8) (d : Bool), isMicroStep i = true → exec i s = .next t →
    ∃ t', exec i { s with ackMiss := m, dioIn := d } = .next t' ∧
      { t' with ackMiss := t.ackMiss, dioIn := t.dioIn, trace := t.trace } = t ∧
      forgetSamples t'.trace = forgetSamples t.trace

/-! ### The step -/

/-- A step runs the decoded instruction: the command presented alone at the first instant (R170), the micro-step
of {`PHASE`, `SUB`} on a tick while the gate is open, with the tick's data-line level (R130, R210), or the reset; a
command word that does not decode answers `ERR_ILLEGAL` and does nothing else (R170). Around it the step only takes
the event from the ports, counts it and records who issued a command (the ports as a list of instants are the
model's, log entry 7). -/
def Obligations.StepRunsTheDecodedInstruction : Prop :=
  ∀ (s : State) (i : Instant) (rest : List Instant), s.arrivals = i :: rest →
    (∀ (r : Request) (c : Instr), i.reset = false → i.issued s.params = [r] → decodeCommand r.word = .ok c →
      step s = exec c { s with
        arrivals := { i with commands := [] } :: rest, taken := s.taken + 1
        issuers := s.issuers ++ [r.producer] }) ∧
    (∀ (r : Request) (e : DecodeError), i.reset = false → i.issued s.params = [r] →
      decodeCommand r.word = .error e →
      step s = .next (answered { s with
        arrivals := { i with commands := [] } :: rest, taken := s.taken + 1
        issuers := s.issuers ++ [r.producer] } 3)) ∧
    (∀ (a : Bool) (u : Instr), i.reset = false → i.issued s.params = [] → i.tick = some a → s.timerOn = true →
      decodeMicro (microState s) = .ok u →
      step s = exec u { s with arrivals := rest, taken := s.taken + 1, dioIn := a }) ∧
    (i.reset = true →
      step s = .next (resetTransaction
        { s with arrivals := { i with reset := false } :: rest, taken := s.taken + 1 }))

/-- R210: a tick at the closed gate does nothing, however many arrive; at the open gate it is the micro-step of
{`PHASE`, `SUB`}. -/
def Obligations.ClosedGateDropsTicks : Prop :=
  (∀ (a : Bool) (s : State), s.timerOn = false → tickTransaction a s = .next s) ∧
  (∀ (a : Bool) (s : State) (u : Instr), s.timerOn = true → decodeMicro (microState s) = .ok u →
    tickTransaction a s = exec u { s with dioIn := a }) ∧
  (∀ (k : Nat) (lvl : Nat → Bool) (s : State), s.timerOn = false → s.arrivals = ticks k lvl →
    run k s = .next { s with arrivals := [], taken := s.taken + k })

/-- The order of R214 at one instant: RESET first, then one command, which is one of those presented, and any of
them may be it (R243), then the TICK; the commands not taken are all still there, in their order, for the next
instant (the model's choice, log entry 8). -/
def Obligations.SimultaneousEventsAreOrdered : Prop :=
  ∀ (p : Params) (i : Instant) (rest : List Instant),
    (i.reset = true → ∀ c, nextEvent p c (i :: rest) = some (.reset, { i with reset := false } :: rest)) ∧
    (i.reset = false → i.issued p ≠ [] → ∀ c, ∃ r ∈ ready (i.issued p), nextEvent p c (i :: rest) =
      some (.command r, { i with commands := [] } :: carry ((i.issued p).erase r) rest)) ∧
    (∀ r ∈ ready (i.issued p), i.reset = false → ∃ c, nextEvent p c (i :: rest) =
      some (.command r, { i with commands := [] } :: carry ((i.issued p).erase r) rest)) ∧
    (∀ r ∈ ready (i.issued p), (carry ((i.issued p).erase r) rest).flatMap Instant.commands =
      (i.issued p).erase r ++ rest.flatMap Instant.commands) ∧
    (∀ a c, i.reset = false → i.issued p = [] → i.tick = some a →
      nextEvent p c (i :: rest) = some (.tick a, rest))

/-- R243: a producer presents one command at a time, its oldest, and every producer with a command to issue presents
one; only the `NPROD` producers that there are do. -/
def Obligations.EachProducerPresentsItsOldestCommand : Prop :=
  (∀ rs : List Request, ((ready rs).map Request.producer).Nodup ∧
    (∀ r ∈ ready rs, rs.find? (fun r' => r'.producer == r.producer) = some r) ∧
    (∀ r ∈ rs, ∃ r' ∈ ready rs, r'.producer = r.producer)) ∧
  (∀ (p : Params) (i : Instant), p.Legal →
    (∀ r ∈ ready (i.issued p), r.producer < p.nprod) ∧
    (∀ r ∈ i.commands, r.producer < p.nprod → ∃ r' ∈ ready (i.issued p), r'.producer = r.producer))

/-- R243, R267 and R72: each producer's own commands are taken in the order it issues them, whatever the others
do: a step takes the oldest command of one producer, or none, and leaves all the others' in their order. -/
def Obligations.EachProducersOrderIsKept : Prop :=
  ∀ (s t : State), step s = .next t → ∀ k, s.params.hasProducer k = true →
    (∃ w rest, upcoming s = some (.command ⟨k, w⟩, rest) ∧ t.issuers = s.issuers ++ [k] ∧
      issuedBy k s.arrivals = w :: issuedBy k t.arrivals) ∨
    ((∀ w rest, upcoming s ≠ some (.command ⟨k, w⟩, rest)) ∧
      (t.issuers = s.issuers ∨ ∃ j, j ≠ k ∧ t.issuers = s.issuers ++ [j]) ∧
      issuedBy k t.arrivals = issuedBy k s.arrivals)

/-- R243 and R242: a command taken is answered in the same step, once, before its producer's next one can be taken,
and the answer goes to the producer that issued it (its record is the model's, log entry 23); other steps answer
nobody. -/
def Obligations.EachCommandIsAnsweredToItsIssuer : Prop :=
  ∀ s t : State, step s = .next t →
    (∀ r rest, upcoming s = some (.command r, rest) →
      ∃ x, t.issuers = s.issuers ++ [r.producer] ∧ t.responses = s.responses ++ [x]) ∧
    ((∀ r rest, upcoming s ≠ some (.command r, rest)) → t.issuers = s.issuers ∧ t.responses = s.responses)

/-- RESET (R260), from every state: the values of R40, no event, no response; STAT then answers 0x00000048. That what
waits at the ports stays is the model's reading (log entry 21). -/
def Obligations.ResetSetsTheResetValues : Prop :=
  ∀ s : State, ∃ t, transact .reset s = .next t ∧
    t.phase = IDLE ∧ t.sub = 0 ∧ t.bptr = 0 ∧ t.rem = 0 ∧ t.head = 0 ∧ t.tail = 0 ∧ t.ackMiss = 0 ∧
    t.timerOn = false ∧ t.clkOut = true ∧ t.dioOut = true ∧ t.trace = s.trace ∧
    t.responses = s.responses ∧ t.issuers = s.issuers ∧ t.params = s.params ∧ t.arrivals = s.arrivals ∧
    (s.params.Legal → exec .stat t = .next (answered t 0x00000048))

/-- The state after reset (R40). The empty trace, and nothing at the ports, are the model's choice (log entries 7
and 11). -/
def Obligations.ResetStateHoldsTheStatedValues : Prop :=
  State.reset.phase = IDLE ∧ State.reset.sub = 0 ∧ State.reset.bptr = 0 ∧ State.reset.rem = 0 ∧
  State.reset.head = 0 ∧ State.reset.tail = 0 ∧ State.reset.ackMiss = 0 ∧ State.reset.timerOn = false ∧
  State.reset.clkOut = true ∧ State.reset.dioOut = true ∧ State.reset.trace = [] ∧ State.reset.arrivals = []

/-! ### Invariants -/

/-- The invariant holds at reset, for every legal choice of the OPEN parameters and whatever arrives. -/
def Obligations.InvAtReset : Prop :=
  ∀ (p : Params) (arrivals : List Instant), p.Legal → BlockInv (State.boot p arrivals)

/-- Every step keeps the invariant, from every state that meets it. -/
def Obligations.EveryStepKeepsInv : Prop :=
  ∀ s t : State, BlockInv s → step s = .next t → BlockInv t

/-- From a state that meets the invariant the block never faults and never refuses: every event is taken as one
transaction that completes. -/
def Obligations.StepNeverStops : Prop :=
  ∀ s : State, BlockInv s → ∃ t, step s = .next t

/-- R36: its seven items hold in every state reachable from reset. -/
def Obligations.ReachableStatesMeetTheInvariants : Prop :=
  ∀ s : State, Reachable s →
    (s.phase.toNat ≤ 5 ∧ LegalPosition s.phase s.sub) ∧
    (s.head < s.params.n ∧ s.tail < s.params.n) ∧
    (s.timerOn = false → s.phase = IDLE ∧ isEmpty s = true) ∧
    (s.timerOn = true → s.phase ≠ IDLE ∨ isEmpty s = false) ∧
    (Sending s → 1 ≤ s.curLen.toNat ∧ s.curLen.toNat ≤ 7 ∧
      s.bptr.toNat + s.rem.toNat = s.curLen.toNat - 1) ∧
    (s.phase = READACK → s.sub = 0 → s.dioOut = true ∧ s.clkOut = true) ∧
    (∀ j < count s, ∃ f, slotAt s j = some f ∧ 1 ≤ f.len.toNat ∧ f.len.toNat ≤ 7)

/-- R213: in every reachable state, a queue that is not empty has the timer on. -/
def Obligations.NoStrandedFrame : Prop :=
  ∀ s : State, Reachable s → isEmpty s = false → s.timerOn = true

/-- R74: no step writes a slot that holds a queued frame, RESET apart. -/
def Obligations.QueuedFramesDoNotChange : Prop :=
  ∀ s t : State, BlockInv s → step s = .next t → t.resets = s.resets →
    ∀ j < count s, t.q.read ((s.tail + j) % s.params.n) = s.q.read ((s.tail + j) % s.params.n)

/-- R120: `COUNT` after each transaction is the frames enqueued less the frames dequeued. -/
def Obligations.CountTracksEnqueuesAndDequeues : Prop :=
  ∀ (s t : State), QueueOk s →
    (∀ w, commandTransaction w s = .next t →
      count t = count s + (if expectedCode w s = .ok then framesAsked w else 0)) ∧
    (∀ a, tickTransaction a s = .next t →
      count s = count t +
        (if s.timerOn = true ∧ s.phase = IDLE ∧ s.sub = 0 ∧ isEmpty s = false then 1 else 0)) ∧
    (transact .reset s = .next t → count t = 0)

/-- R117: an enqueue puts its frames behind all the others, a dequeue takes the first. -/
def Obligations.QueueIsFirstInFirstOut : Prop :=
  (∀ (s t : State) (f : Frame), QueueOk s → qEnq f s = .ok (true, t) → contents t = contents s ++ [f]) ∧
  (∀ (s t : State) (f1 f2 : Frame), QueueOk s → qEnq2 f1 f2 s = .ok (true, t) →
    contents t = contents s ++ [f1, f2]) ∧
  (∀ (s t : State) (f : Frame), BlockInv s → qDeq s = .ok (some f, t) → contents s = f :: contents t)

/-- R118: from an empty queue, with no tick between them, N - 1 one-frame commands succeed and the next one
answers `ERR_FULL` and leaves `HEAD`, `TAIL` and every slot as they are. -/
def Obligations.CapacityIsOneLessThanTheSlots : Prop :=
  ∀ (s : State) (ws : List CommandWord) (rest : List Instant), QueueOk s → isEmpty s = true →
    ws.length = s.params.n →
    (∀ w ∈ ws, framesAsked w = 1 ∧ reservedBitSet w = false ∧ illegalLength w = false) →
    s.arrivals = ws.map Instant.ofCommand ++ rest →
    ∃ t u, run (s.params.n - 1) s = .next t ∧
      t.responses = s.responses ++ List.replicate (s.params.n - 1) 0 ∧
      step t = .next u ∧ u.responses = t.responses ++ [1] ∧
      u.head = t.head ∧ u.tail = t.tail ∧ u.q = t.q

/-- R245 with R212: the timer turns on only by a command that enqueued, which asks for the start; it turns off
only by U_DONE with an empty queue, which asks for the stop, or by a RESET; while it is off no tick changes
anything. -/
def Obligations.TimerTurnsOnAndOffAsStated : Prop :=
  (∀ s t : State, QueueOk s → step s = .next t → s.timerOn = false → t.timerOn = true →
    ∃ r rest, upcoming s = some (.command r, rest) ∧
      expectedCode r.word s = .ok ∧ 1 ≤ framesAsked r.word ∧ t.trace = s.trace ++ [.tmrStart]) ∧
  (∀ s t : State, step s = .next t → s.timerOn = true → t.timerOn = false →
    (∃ rest, upcoming s = some (.reset, rest) ∧ t.trace = s.trace) ∨
    (∃ a rest, upcoming s = some (.tick a, rest) ∧
      s.phase = DONE ∧ s.sub = 0 ∧ isEmpty s = true ∧ t.trace = s.trace ++ [.tmrStop])) ∧
  (∀ (a : Bool) (s : State), s.timerOn = false → transact (.tick a) s = .next s)

/-- R216: with no RESET between them, the timer-control events after a state with the timer off alternate,
`TmrStart` first. -/
def Obligations.TimerStrobesAlternate : Prop :=
  ∀ (k : Nat) (s t : State), BlockInv s → s.timerOn = false → (∀ i ∈ s.arrivals, i.reset = false) →
    run k s = .next t →
    ∃ es, t.trace = s.trace ++ es ∧
      strobes es = (List.range (strobes es).length).map (fun j => decide (j % 2 = 0)) ∧
      t.timerOn = decide ((strobes es).length % 2 = 1)

/-- R218: the source's race, both orders. From `DONE` with an empty queue, a tick and then a command that enqueues,
or the command and then the tick, lead to the same state but for the trace, with its frames queued and the timer
on; for `ENQ 0x40` and for every other such command (R211). -/
def Obligations.RaceOrdersAgree : Prop :=
  ∀ (s : State) (a : Bool) (w : CommandWord), BlockInv s → s.phase = DONE → s.timerOn = true → isEmpty s = true →
    expectedCode w s = .ok → 1 ≤ framesAsked w →
    ∃ t1 u1 t2 u2,
      tickTransaction a s = .next t1 ∧ commandTransaction w t1 = .next u1 ∧
      commandTransaction w s = .next t2 ∧ tickTransaction a t2 = .next u2 ∧
      u1.trace = s.trace ++ [.tmrStop, .tmrStart] ∧ u2.trace = s.trace ∧
      u1 = { u2 with trace := u1.trace } ∧ u1.timerOn = true ∧ u1.phase = IDLE ∧
      contents u1 = framesOf s.params w

/-- R264: a STATUS word with `EMPTY` = 1 and `TIMER_ON` = 0 says that no frame is queued or being sent. -/
def Obligations.StatusEmptyAndOffMeansDone : Prop :=
  ∀ s : State, Reachable s → (status s).getLsbD 3 = true → (status s).getLsbD 5 = false →
    s.phase = IDLE ∧ contents s = [] ∧ s.clkOut = true ∧ s.dioOut = true

/-! ### The wire -/

/-- On the wire the data line changes while the clock is high only as the start condition in U_START1 and as the
stop condition in U_STOP3 (R135, R145): each tick from a state that meets the invariant shows exactly those. -/
def Obligations.DataMovesWithClockHighOnlyAtStartAndStop : Prop :=
  ∀ (a : Bool) (s t : State), BlockInv s → tickTransaction a s = .next t →
    ∃ es, t.trace = s.trace ++ es ∧
      conditions s.clkOut s.dioOut es =
        if s.phase = START ∧ s.sub = 1 then [Condition.start]
        else if s.phase = STOP ∧ s.sub = 3 then [Condition.stop] else []

/-- R148: a queued frame of n bytes, from `IDLE`, takes 12n + 9 ticks and puts exactly its line events on the
wire, whatever is sampled, `TmrStop` last when the queue is then empty; each of the ticks is accepted, and the
block is back in `IDLE` after the last one and not before. -/
def Obligations.FrameOnTheWire : Prop :=
  ∀ (s : State) (f : Frame) (lvl : Nat → Bool) (rest : List Instant), BlockInv s → s.phase = IDLE →
    isEmpty s = false → s.q.read s.tail = some f →
    s.arrivals = ticks (12 * f.len.toNat + 9) lvl ++ rest →
    ∃ t, run (12 * f.len.toNat + 9) s = .next t ∧
      t.trace = s.trace
        ++ frameEvents (f.payload.mapIdx fun j x => (x, lvl (12 * j + 14)))
        ++ (if inc s.params.n s.tail = s.head then [.tmrStop] else []) ∧
      (frameEvents (f.payload.mapIdx fun j x => (x, lvl (12 * j + 14)))).countP Event.isDrive
        = 28 * f.len.toNat + 8 ∧
      t.phase = IDLE ∧ t.sub = 0 ∧ t.head = s.head ∧ t.tail = inc s.params.n s.tail ∧ t.q = s.q ∧
      t.timerOn = decide (inc s.params.n s.tail ≠ s.head) ∧ t.arrivals = rest ∧
      t.ackMiss.toNat = min 255
        (s.ackMiss.toNat + ((List.range f.len.toNat).countP fun j => lvl (12 * j + 14))) ∧
      (∀ k < 12 * f.len.toNat + 9, ∃ u, run k s = .next u ∧ u.timerOn = true ∧ (0 < k → u.phase ≠ IDLE))

/-- R215: a queue of frames of n1, ..., nk bytes, from `IDLE`, drains in exactly the sum of 12 ni + 9 accepted
ticks (the timer is on before each of them), each frame sent once, in order, and the block is then idle with the
timer off. -/
def Obligations.QueueDrainsInOrder : Prop :=
  ∀ (s : State) (lvl : Nat → Bool) (rest : List Instant), BlockInv s → s.phase = IDLE →
    s.arrivals = ticks (drainTicks (contents s)) lvl ++ rest →
    ∃ t, run (drainTicks (contents s)) s = .next t ∧
      t.phase = IDLE ∧ t.timerOn = false ∧ isEmpty t = true ∧ t.arrivals = rest ∧
      t.trace.filter Event.isDrive =
        s.trace.filter Event.isDrive ++ (contents s).flatMap Frame.drives ∧
      (∀ k < drainTicks (contents s), ∃ u, run k s = .next u ∧ u.timerOn = true)

/-- R6, row `IDXW`, with R20: `IDXW` is ceil(log2 N), 6 for N = 50; `HEAD` and `TAIL` hold `IDXW` bits at reset, and
every step keeps them to `IDXW` bits, from every state in which they do, whatever N is; an index that names a slot
always fits. -/
def Obligations.IndexRegistersHoldIdxwBits : Prop :=
  (∀ n, 3 ≤ n → n ≤ 256 → n ≤ 2 ^ idxWidth n ∧ 2 ^ (idxWidth n - 1) < n) ∧ idxWidth 50 = 6 ∧
  (∀ p arrivals, IndicesFit (State.boot p arrivals)) ∧
  (∀ s t : State, IndicesFit s → step s = .next t → IndicesFit t) ∧
  (∀ s : State, QueueOk s → IndicesFit s)

/-- R6: no step changes a parameter the block was built with. -/
def Obligations.ParametersNeverChange : Prop :=
  ∀ s t : State, step s = .next t → t.params = s.params
end

