-- ==== Sys2Proof/Laws/State.lean ====
section
/-! SUPPORT. What each named update of the state does to each field, so that no proof unfolds a record update. -/

namespace Sys2Proof.Machine

variable (s : State)

/-! ### emit -/

@[simp] theorem State.emit_params (e : Event) : (s.emit e).params = s.params := rfl
@[simp] theorem State.emit_phase (e : Event) : (s.emit e).phase = s.phase := rfl
@[simp] theorem State.emit_sub (e : Event) : (s.emit e).sub = s.sub := rfl
@[simp] theorem State.emit_bptr (e : Event) : (s.emit e).bptr = s.bptr := rfl
@[simp] theorem State.emit_rem (e : Event) : (s.emit e).rem = s.rem := rfl
@[simp] theorem State.emit_curLen (e : Event) : (s.emit e).curLen = s.curLen := rfl
@[simp] theorem State.emit_curB (e : Event) : (s.emit e).curB = s.curB := rfl
@[simp] theorem State.emit_head (e : Event) : (s.emit e).head = s.head := rfl
@[simp] theorem State.emit_tail (e : Event) : (s.emit e).tail = s.tail := rfl
@[simp] theorem State.emit_q (e : Event) : (s.emit e).q = s.q := rfl
@[simp] theorem State.emit_ackMiss (e : Event) : (s.emit e).ackMiss = s.ackMiss := rfl
@[simp] theorem State.emit_timerOn (e : Event) : (s.emit e).timerOn = s.timerOn := rfl
@[simp] theorem State.emit_clkOut (e : Event) : (s.emit e).clkOut = s.clkOut := rfl
@[simp] theorem State.emit_dioOut (e : Event) : (s.emit e).dioOut = s.dioOut := rfl
@[simp] theorem State.emit_trace (e : Event) : (s.emit e).trace = s.trace ++ [e] := rfl
@[simp] theorem State.emit_dioIn (e : Event) : (s.emit e).dioIn = s.dioIn := rfl
@[simp] theorem State.emit_responses (e : Event) : (s.emit e).responses = s.responses := rfl
@[simp] theorem State.emit_issuers (e : Event) : (s.emit e).issuers = s.issuers := rfl
@[simp] theorem State.emit_arrivals (e : Event) : (s.emit e).arrivals = s.arrivals := rfl
@[simp] theorem State.emit_resets (e : Event) : (s.emit e).resets = s.resets := rfl
@[simp] theorem State.emit_taken (e : Event) : (s.emit e).taken = s.taken := rfl

/-! ### driveClk -/

@[simp] theorem State.driveClk_params (v : Bool) : (s.driveClk v).params = s.params := rfl
@[simp] theorem State.driveClk_phase (v : Bool) : (s.driveClk v).phase = s.phase := rfl
@[simp] theorem State.driveClk_sub (v : Bool) : (s.driveClk v).sub = s.sub := rfl
@[simp] theorem State.driveClk_bptr (v : Bool) : (s.driveClk v).bptr = s.bptr := rfl
@[simp] theorem State.driveClk_rem (v : Bool) : (s.driveClk v).rem = s.rem := rfl
@[simp] theorem State.driveClk_curLen (v : Bool) : (s.driveClk v).curLen = s.curLen := rfl
@[simp] theorem State.driveClk_curB (v : Bool) : (s.driveClk v).curB = s.curB := rfl
@[simp] theorem State.driveClk_head (v : Bool) : (s.driveClk v).head = s.head := rfl
@[simp] theorem State.driveClk_tail (v : Bool) : (s.driveClk v).tail = s.tail := rfl
@[simp] theorem State.driveClk_q (v : Bool) : (s.driveClk v).q = s.q := rfl
@[simp] theorem State.driveClk_ackMiss (v : Bool) : (s.driveClk v).ackMiss = s.ackMiss := rfl
@[simp] theorem State.driveClk_timerOn (v : Bool) : (s.driveClk v).timerOn = s.timerOn := rfl
@[simp] theorem State.driveClk_clkOut (v : Bool) : (s.driveClk v).clkOut = v := rfl
@[simp] theorem State.driveClk_dioOut (v : Bool) : (s.driveClk v).dioOut = s.dioOut := rfl
@[simp] theorem State.driveClk_trace (v : Bool) : (s.driveClk v).trace = s.trace ++ [.clk v] := rfl
@[simp] theorem State.driveClk_dioIn (v : Bool) : (s.driveClk v).dioIn = s.dioIn := rfl
@[simp] theorem State.driveClk_responses (v : Bool) : (s.driveClk v).responses = s.responses := rfl
@[simp] theorem State.driveClk_issuers (v : Bool) : (s.driveClk v).issuers = s.issuers := rfl
@[simp] theorem State.driveClk_arrivals (v : Bool) : (s.driveClk v).arrivals = s.arrivals := rfl
@[simp] theorem State.driveClk_resets (v : Bool) : (s.driveClk v).resets = s.resets := rfl
@[simp] theorem State.driveClk_taken (v : Bool) : (s.driveClk v).taken = s.taken := rfl

/-! ### driveDio -/

@[simp] theorem State.driveDio_params (v : Bool) : (s.driveDio v).params = s.params := rfl
@[simp] theorem State.driveDio_phase (v : Bool) : (s.driveDio v).phase = s.phase := rfl
@[simp] theorem State.driveDio_sub (v : Bool) : (s.driveDio v).sub = s.sub := rfl
@[simp] theorem State.driveDio_bptr (v : Bool) : (s.driveDio v).bptr = s.bptr := rfl
@[simp] theorem State.driveDio_rem (v : Bool) : (s.driveDio v).rem = s.rem := rfl
@[simp] theorem State.driveDio_curLen (v : Bool) : (s.driveDio v).curLen = s.curLen := rfl
@[simp] theorem State.driveDio_curB (v : Bool) : (s.driveDio v).curB = s.curB := rfl
@[simp] theorem State.driveDio_head (v : Bool) : (s.driveDio v).head = s.head := rfl
@[simp] theorem State.driveDio_tail (v : Bool) : (s.driveDio v).tail = s.tail := rfl
@[simp] theorem State.driveDio_q (v : Bool) : (s.driveDio v).q = s.q := rfl
@[simp] theorem State.driveDio_ackMiss (v : Bool) : (s.driveDio v).ackMiss = s.ackMiss := rfl
@[simp] theorem State.driveDio_timerOn (v : Bool) : (s.driveDio v).timerOn = s.timerOn := rfl
@[simp] theorem State.driveDio_clkOut (v : Bool) : (s.driveDio v).clkOut = s.clkOut := rfl
@[simp] theorem State.driveDio_dioOut (v : Bool) : (s.driveDio v).dioOut = v := rfl
@[simp] theorem State.driveDio_trace (v : Bool) : (s.driveDio v).trace = s.trace ++ [.dio v] := rfl
@[simp] theorem State.driveDio_dioIn (v : Bool) : (s.driveDio v).dioIn = s.dioIn := rfl
@[simp] theorem State.driveDio_responses (v : Bool) : (s.driveDio v).responses = s.responses := rfl
@[simp] theorem State.driveDio_issuers (v : Bool) : (s.driveDio v).issuers = s.issuers := rfl
@[simp] theorem State.driveDio_arrivals (v : Bool) : (s.driveDio v).arrivals = s.arrivals := rfl
@[simp] theorem State.driveDio_resets (v : Bool) : (s.driveDio v).resets = s.resets := rfl
@[simp] theorem State.driveDio_taken (v : Bool) : (s.driveDio v).taken = s.taken := rfl

/-! ### timerStart -/

@[simp] theorem State.timerStart_params : (s.timerStart).params = s.params := rfl
@[simp] theorem State.timerStart_phase : (s.timerStart).phase = s.phase := rfl
@[simp] theorem State.timerStart_sub : (s.timerStart).sub = s.sub := rfl
@[simp] theorem State.timerStart_bptr : (s.timerStart).bptr = s.bptr := rfl
@[simp] theorem State.timerStart_rem : (s.timerStart).rem = s.rem := rfl
@[simp] theorem State.timerStart_curLen : (s.timerStart).curLen = s.curLen := rfl
@[simp] theorem State.timerStart_curB : (s.timerStart).curB = s.curB := rfl
@[simp] theorem State.timerStart_head : (s.timerStart).head = s.head := rfl
@[simp] theorem State.timerStart_tail : (s.timerStart).tail = s.tail := rfl
@[simp] theorem State.timerStart_q : (s.timerStart).q = s.q := rfl
@[simp] theorem State.timerStart_ackMiss : (s.timerStart).ackMiss = s.ackMiss := rfl
@[simp] theorem State.timerStart_timerOn : (s.timerStart).timerOn = true := rfl
@[simp] theorem State.timerStart_clkOut : (s.timerStart).clkOut = s.clkOut := rfl
@[simp] theorem State.timerStart_dioOut : (s.timerStart).dioOut = s.dioOut := rfl
@[simp] theorem State.timerStart_trace : (s.timerStart).trace = s.trace ++ [.tmrStart] := rfl
@[simp] theorem State.timerStart_dioIn : (s.timerStart).dioIn = s.dioIn := rfl
@[simp] theorem State.timerStart_responses : (s.timerStart).responses = s.responses := rfl
@[simp] theorem State.timerStart_issuers : (s.timerStart).issuers = s.issuers := rfl
@[simp] theorem State.timerStart_arrivals : (s.timerStart).arrivals = s.arrivals := rfl
@[simp] theorem State.timerStart_resets : (s.timerStart).resets = s.resets := rfl
@[simp] theorem State.timerStart_taken : (s.timerStart).taken = s.taken := rfl

/-! ### timerStop -/

@[simp] theorem State.timerStop_params : (s.timerStop).params = s.params := rfl
@[simp] theorem State.timerStop_phase : (s.timerStop).phase = s.phase := rfl
@[simp] theorem State.timerStop_sub : (s.timerStop).sub = s.sub := rfl
@[simp] theorem State.timerStop_bptr : (s.timerStop).bptr = s.bptr := rfl
@[simp] theorem State.timerStop_rem : (s.timerStop).rem = s.rem := rfl
@[simp] theorem State.timerStop_curLen : (s.timerStop).curLen = s.curLen := rfl
@[simp] theorem State.timerStop_curB : (s.timerStop).curB = s.curB := rfl
@[simp] theorem State.timerStop_head : (s.timerStop).head = s.head := rfl
@[simp] theorem State.timerStop_tail : (s.timerStop).tail = s.tail := rfl
@[simp] theorem State.timerStop_q : (s.timerStop).q = s.q := rfl
@[simp] theorem State.timerStop_ackMiss : (s.timerStop).ackMiss = s.ackMiss := rfl
@[simp] theorem State.timerStop_timerOn : (s.timerStop).timerOn = false := rfl
@[simp] theorem State.timerStop_clkOut : (s.timerStop).clkOut = s.clkOut := rfl
@[simp] theorem State.timerStop_dioOut : (s.timerStop).dioOut = s.dioOut := rfl
@[simp] theorem State.timerStop_trace : (s.timerStop).trace = s.trace ++ [.tmrStop] := rfl
@[simp] theorem State.timerStop_dioIn : (s.timerStop).dioIn = s.dioIn := rfl
@[simp] theorem State.timerStop_responses : (s.timerStop).responses = s.responses := rfl
@[simp] theorem State.timerStop_issuers : (s.timerStop).issuers = s.issuers := rfl
@[simp] theorem State.timerStop_arrivals : (s.timerStop).arrivals = s.arrivals := rfl
@[simp] theorem State.timerStop_resets : (s.timerStop).resets = s.resets := rfl
@[simp] theorem State.timerStop_taken : (s.timerStop).taken = s.taken := rfl

/-! ### setSub -/

@[simp] theorem State.setSub_params (k : BitVec 4) : (s.setSub k).params = s.params := rfl
@[simp] theorem State.setSub_phase (k : BitVec 4) : (s.setSub k).phase = s.phase := rfl
@[simp] theorem State.setSub_sub (k : BitVec 4) : (s.setSub k).sub = k := rfl
@[simp] theorem State.setSub_bptr (k : BitVec 4) : (s.setSub k).bptr = s.bptr := rfl
@[simp] theorem State.setSub_rem (k : BitVec 4) : (s.setSub k).rem = s.rem := rfl
@[simp] theorem State.setSub_curLen (k : BitVec 4) : (s.setSub k).curLen = s.curLen := rfl
@[simp] theorem State.setSub_curB (k : BitVec 4) : (s.setSub k).curB = s.curB := rfl
@[simp] theorem State.setSub_head (k : BitVec 4) : (s.setSub k).head = s.head := rfl
@[simp] theorem State.setSub_tail (k : BitVec 4) : (s.setSub k).tail = s.tail := rfl
@[simp] theorem State.setSub_q (k : BitVec 4) : (s.setSub k).q = s.q := rfl
@[simp] theorem State.setSub_ackMiss (k : BitVec 4) : (s.setSub k).ackMiss = s.ackMiss := rfl
@[simp] theorem State.setSub_timerOn (k : BitVec 4) : (s.setSub k).timerOn = s.timerOn := rfl
@[simp] theorem State.setSub_clkOut (k : BitVec 4) : (s.setSub k).clkOut = s.clkOut := rfl
@[simp] theorem State.setSub_dioOut (k : BitVec 4) : (s.setSub k).dioOut = s.dioOut := rfl
@[simp] theorem State.setSub_trace (k : BitVec 4) : (s.setSub k).trace = s.trace := rfl
@[simp] theorem State.setSub_dioIn (k : BitVec 4) : (s.setSub k).dioIn = s.dioIn := rfl
@[simp] theorem State.setSub_responses (k : BitVec 4) : (s.setSub k).responses = s.responses := rfl
@[simp] theorem State.setSub_issuers (k : BitVec 4) : (s.setSub k).issuers = s.issuers := rfl
@[simp] theorem State.setSub_arrivals (k : BitVec 4) : (s.setSub k).arrivals = s.arrivals := rfl
@[simp] theorem State.setSub_resets (k : BitVec 4) : (s.setSub k).resets = s.resets := rfl
@[simp] theorem State.setSub_taken (k : BitVec 4) : (s.setSub k).taken = s.taken := rfl

/-! ### enterPhase -/

@[simp] theorem State.enterPhase_params (p : BitVec 3) : (s.enterPhase p).params = s.params := rfl
@[simp] theorem State.enterPhase_phase (p : BitVec 3) : (s.enterPhase p).phase = p := rfl
@[simp] theorem State.enterPhase_sub (p : BitVec 3) : (s.enterPhase p).sub = 0 := rfl
@[simp] theorem State.enterPhase_bptr (p : BitVec 3) : (s.enterPhase p).bptr = s.bptr := rfl
@[simp] theorem State.enterPhase_rem (p : BitVec 3) : (s.enterPhase p).rem = s.rem := rfl
@[simp] theorem State.enterPhase_curLen (p : BitVec 3) : (s.enterPhase p).curLen = s.curLen := rfl
@[simp] theorem State.enterPhase_curB (p : BitVec 3) : (s.enterPhase p).curB = s.curB := rfl
@[simp] theorem State.enterPhase_head (p : BitVec 3) : (s.enterPhase p).head = s.head := rfl
@[simp] theorem State.enterPhase_tail (p : BitVec 3) : (s.enterPhase p).tail = s.tail := rfl
@[simp] theorem State.enterPhase_q (p : BitVec 3) : (s.enterPhase p).q = s.q := rfl
@[simp] theorem State.enterPhase_ackMiss (p : BitVec 3) : (s.enterPhase p).ackMiss = s.ackMiss := rfl
@[simp] theorem State.enterPhase_timerOn (p : BitVec 3) : (s.enterPhase p).timerOn = s.timerOn := rfl
@[simp] theorem State.enterPhase_clkOut (p : BitVec 3) : (s.enterPhase p).clkOut = s.clkOut := rfl
@[simp] theorem State.enterPhase_dioOut (p : BitVec 3) : (s.enterPhase p).dioOut = s.dioOut := rfl
@[simp] theorem State.enterPhase_trace (p : BitVec 3) : (s.enterPhase p).trace = s.trace := rfl
@[simp] theorem State.enterPhase_dioIn (p : BitVec 3) : (s.enterPhase p).dioIn = s.dioIn := rfl
@[simp] theorem State.enterPhase_responses (p : BitVec 3) : (s.enterPhase p).responses = s.responses := rfl
@[simp] theorem State.enterPhase_issuers (p : BitVec 3) : (s.enterPhase p).issuers = s.issuers := rfl
@[simp] theorem State.enterPhase_arrivals (p : BitVec 3) : (s.enterPhase p).arrivals = s.arrivals := rfl
@[simp] theorem State.enterPhase_resets (p : BitVec 3) : (s.enterPhase p).resets = s.resets := rfl
@[simp] theorem State.enterPhase_taken (p : BitVec 3) : (s.enterPhase p).taken = s.taken := rfl

/-! ### respond -/

@[simp] theorem State.respond_params (c : RspCode) (r : Bool) (d : BitVec 29) : (s.respond c r d).params = s.params := rfl
@[simp] theorem State.respond_phase (c : RspCode) (r : Bool) (d : BitVec 29) : (s.respond c r d).phase = s.phase := rfl
@[simp] theorem State.respond_sub (c : RspCode) (r : Bool) (d : BitVec 29) : (s.respond c r d).sub = s.sub := rfl
@[simp] theorem State.respond_bptr (c : RspCode) (r : Bool) (d : BitVec 29) : (s.respond c r d).bptr = s.bptr := rfl
@[simp] theorem State.respond_rem (c : RspCode) (r : Bool) (d : BitVec 29) : (s.respond c r d).rem = s.rem := rfl
@[simp] theorem State.respond_curLen (c : RspCode) (r : Bool) (d : BitVec 29) : (s.respond c r d).curLen = s.curLen := rfl
@[simp] theorem State.respond_curB (c : RspCode) (r : Bool) (d : BitVec 29) : (s.respond c r d).curB = s.curB := rfl
@[simp] theorem State.respond_head (c : RspCode) (r : Bool) (d : BitVec 29) : (s.respond c r d).head = s.head := rfl
@[simp] theorem State.respond_tail (c : RspCode) (r : Bool) (d : BitVec 29) : (s.respond c r d).tail = s.tail := rfl
@[simp] theorem State.respond_q (c : RspCode) (r : Bool) (d : BitVec 29) : (s.respond c r d).q = s.q := rfl
@[simp] theorem State.respond_ackMiss (c : RspCode) (r : Bool) (d : BitVec 29) : (s.respond c r d).ackMiss = s.ackMiss := rfl
@[simp] theorem State.respond_timerOn (c : RspCode) (r : Bool) (d : BitVec 29) : (s.respond c r d).timerOn = s.timerOn := rfl
@[simp] theorem State.respond_clkOut (c : RspCode) (r : Bool) (d : BitVec 29) : (s.respond c r d).clkOut = s.clkOut := rfl
@[simp] theorem State.respond_dioOut (c : RspCode) (r : Bool) (d : BitVec 29) : (s.respond c r d).dioOut = s.dioOut := rfl
@[simp] theorem State.respond_trace (c : RspCode) (r : Bool) (d : BitVec 29) : (s.respond c r d).trace = s.trace := rfl
@[simp] theorem State.respond_dioIn (c : RspCode) (r : Bool) (d : BitVec 29) : (s.respond c r d).dioIn = s.dioIn := rfl
@[simp] theorem State.respond_responses (c : RspCode) (r : Bool) (d : BitVec 29) : (s.respond c r d).responses = s.responses ++ [responseWord c r d] := rfl
@[simp] theorem State.respond_issuers (c : RspCode) (r : Bool) (d : BitVec 29) : (s.respond c r d).issuers = s.issuers := rfl
@[simp] theorem State.respond_arrivals (c : RspCode) (r : Bool) (d : BitVec 29) : (s.respond c r d).arrivals = s.arrivals := rfl
@[simp] theorem State.respond_resets (c : RspCode) (r : Bool) (d : BitVec 29) : (s.respond c r d).resets = s.resets := rfl
@[simp] theorem State.respond_taken (c : RspCode) (r : Bool) (d : BitVec 29) : (s.respond c r d).taken = s.taken := rfl

/-! ### raise -/

@[simp] theorem State.raise_params (c : RspCode) : (s.raise c).params = s.params := rfl
@[simp] theorem State.raise_phase (c : RspCode) : (s.raise c).phase = s.phase := rfl
@[simp] theorem State.raise_sub (c : RspCode) : (s.raise c).sub = s.sub := rfl
@[simp] theorem State.raise_bptr (c : RspCode) : (s.raise c).bptr = s.bptr := rfl
@[simp] theorem State.raise_rem (c : RspCode) : (s.raise c).rem = s.rem := rfl
@[simp] theorem State.raise_curLen (c : RspCode) : (s.raise c).curLen = s.curLen := rfl
@[simp] theorem State.raise_curB (c : RspCode) : (s.raise c).curB = s.curB := rfl
@[simp] theorem State.raise_head (c : RspCode) : (s.raise c).head = s.head := rfl
@[simp] theorem State.raise_tail (c : RspCode) : (s.raise c).tail = s.tail := rfl
@[simp] theorem State.raise_q (c : RspCode) : (s.raise c).q = s.q := rfl
@[simp] theorem State.raise_ackMiss (c : RspCode) : (s.raise c).ackMiss = s.ackMiss := rfl
@[simp] theorem State.raise_timerOn (c : RspCode) : (s.raise c).timerOn = s.timerOn := rfl
@[simp] theorem State.raise_clkOut (c : RspCode) : (s.raise c).clkOut = s.clkOut := rfl
@[simp] theorem State.raise_dioOut (c : RspCode) : (s.raise c).dioOut = s.dioOut := rfl
@[simp] theorem State.raise_trace (c : RspCode) : (s.raise c).trace = s.trace := rfl
@[simp] theorem State.raise_dioIn (c : RspCode) : (s.raise c).dioIn = s.dioIn := rfl
@[simp] theorem State.raise_responses (c : RspCode) : (s.raise c).responses = s.responses ++ [responseWord c false 0] := rfl
@[simp] theorem State.raise_issuers (c : RspCode) : (s.raise c).issuers = s.issuers := rfl
@[simp] theorem State.raise_arrivals (c : RspCode) : (s.raise c).arrivals = s.arrivals := rfl
@[simp] theorem State.raise_resets (c : RspCode) : (s.raise c).resets = s.resets := rfl
@[simp] theorem State.raise_taken (c : RspCode) : (s.raise c).taken = s.taken := rfl

/-! ### setHead -/

@[simp] theorem State.setHead_params (i : Nat) : (s.setHead i).params = s.params := rfl
@[simp] theorem State.setHead_phase (i : Nat) : (s.setHead i).phase = s.phase := rfl
@[simp] theorem State.setHead_sub (i : Nat) : (s.setHead i).sub = s.sub := rfl
@[simp] theorem State.setHead_bptr (i : Nat) : (s.setHead i).bptr = s.bptr := rfl
@[simp] theorem State.setHead_rem (i : Nat) : (s.setHead i).rem = s.rem := rfl
@[simp] theorem State.setHead_curLen (i : Nat) : (s.setHead i).curLen = s.curLen := rfl
@[simp] theorem State.setHead_curB (i : Nat) : (s.setHead i).curB = s.curB := rfl
@[simp] theorem State.setHead_head (i : Nat) : (s.setHead i).head = toIndex s.params.n i := rfl
@[simp] theorem State.setHead_tail (i : Nat) : (s.setHead i).tail = s.tail := rfl
@[simp] theorem State.setHead_q (i : Nat) : (s.setHead i).q = s.q := rfl
@[simp] theorem State.setHead_ackMiss (i : Nat) : (s.setHead i).ackMiss = s.ackMiss := rfl
@[simp] theorem State.setHead_timerOn (i : Nat) : (s.setHead i).timerOn = s.timerOn := rfl
@[simp] theorem State.setHead_clkOut (i : Nat) : (s.setHead i).clkOut = s.clkOut := rfl
@[simp] theorem State.setHead_dioOut (i : Nat) : (s.setHead i).dioOut = s.dioOut := rfl
@[simp] theorem State.setHead_trace (i : Nat) : (s.setHead i).trace = s.trace := rfl
@[simp] theorem State.setHead_dioIn (i : Nat) : (s.setHead i).dioIn = s.dioIn := rfl
@[simp] theorem State.setHead_responses (i : Nat) : (s.setHead i).responses = s.responses := rfl
@[simp] theorem State.setHead_issuers (i : Nat) : (s.setHead i).issuers = s.issuers := rfl
@[simp] theorem State.setHead_arrivals (i : Nat) : (s.setHead i).arrivals = s.arrivals := rfl
@[simp] theorem State.setHead_resets (i : Nat) : (s.setHead i).resets = s.resets := rfl
@[simp] theorem State.setHead_taken (i : Nat) : (s.setHead i).taken = s.taken := rfl

/-! ### setTail -/

@[simp] theorem State.setTail_params (i : Nat) : (s.setTail i).params = s.params := rfl
@[simp] theorem State.setTail_phase (i : Nat) : (s.setTail i).phase = s.phase := rfl
@[simp] theorem State.setTail_sub (i : Nat) : (s.setTail i).sub = s.sub := rfl
@[simp] theorem State.setTail_bptr (i : Nat) : (s.setTail i).bptr = s.bptr := rfl
@[simp] theorem State.setTail_rem (i : Nat) : (s.setTail i).rem = s.rem := rfl
@[simp] theorem State.setTail_curLen (i : Nat) : (s.setTail i).curLen = s.curLen := rfl
@[simp] theorem State.setTail_curB (i : Nat) : (s.setTail i).curB = s.curB := rfl
@[simp] theorem State.setTail_head (i : Nat) : (s.setTail i).head = s.head := rfl
@[simp] theorem State.setTail_tail (i : Nat) : (s.setTail i).tail = toIndex s.params.n i := rfl
@[simp] theorem State.setTail_q (i : Nat) : (s.setTail i).q = s.q := rfl
@[simp] theorem State.setTail_ackMiss (i : Nat) : (s.setTail i).ackMiss = s.ackMiss := rfl
@[simp] theorem State.setTail_timerOn (i : Nat) : (s.setTail i).timerOn = s.timerOn := rfl
@[simp] theorem State.setTail_clkOut (i : Nat) : (s.setTail i).clkOut = s.clkOut := rfl
@[simp] theorem State.setTail_dioOut (i : Nat) : (s.setTail i).dioOut = s.dioOut := rfl
@[simp] theorem State.setTail_trace (i : Nat) : (s.setTail i).trace = s.trace := rfl
@[simp] theorem State.setTail_dioIn (i : Nat) : (s.setTail i).dioIn = s.dioIn := rfl
@[simp] theorem State.setTail_responses (i : Nat) : (s.setTail i).responses = s.responses := rfl
@[simp] theorem State.setTail_issuers (i : Nat) : (s.setTail i).issuers = s.issuers := rfl
@[simp] theorem State.setTail_arrivals (i : Nat) : (s.setTail i).arrivals = s.arrivals := rfl
@[simp] theorem State.setTail_resets (i : Nat) : (s.setTail i).resets = s.resets := rfl
@[simp] theorem State.setTail_taken (i : Nat) : (s.setTail i).taken = s.taken := rfl

/-! ### loadFrame -/

@[simp] theorem State.loadFrame_params (f : Frame) : (s.loadFrame f).params = s.params := rfl
@[simp] theorem State.loadFrame_phase (f : Frame) : (s.loadFrame f).phase = s.phase := rfl
@[simp] theorem State.loadFrame_sub (f : Frame) : (s.loadFrame f).sub = s.sub := rfl
@[simp] theorem State.loadFrame_bptr (f : Frame) : (s.loadFrame f).bptr = 0 := rfl
@[simp] theorem State.loadFrame_rem (f : Frame) : (s.loadFrame f).rem = f.len - 1 := rfl
@[simp] theorem State.loadFrame_curLen (f : Frame) : (s.loadFrame f).curLen = f.len := rfl
@[simp] theorem State.loadFrame_curB (f : Frame) : (s.loadFrame f).curB = f.b := rfl
@[simp] theorem State.loadFrame_head (f : Frame) : (s.loadFrame f).head = s.head := rfl
@[simp] theorem State.loadFrame_tail (f : Frame) : (s.loadFrame f).tail = s.tail := rfl
@[simp] theorem State.loadFrame_q (f : Frame) : (s.loadFrame f).q = s.q := rfl
@[simp] theorem State.loadFrame_ackMiss (f : Frame) : (s.loadFrame f).ackMiss = s.ackMiss := rfl
@[simp] theorem State.loadFrame_timerOn (f : Frame) : (s.loadFrame f).timerOn = s.timerOn := rfl
@[simp] theorem State.loadFrame_clkOut (f : Frame) : (s.loadFrame f).clkOut = s.clkOut := rfl
@[simp] theorem State.loadFrame_dioOut (f : Frame) : (s.loadFrame f).dioOut = s.dioOut := rfl
@[simp] theorem State.loadFrame_trace (f : Frame) : (s.loadFrame f).trace = s.trace := rfl
@[simp] theorem State.loadFrame_dioIn (f : Frame) : (s.loadFrame f).dioIn = s.dioIn := rfl
@[simp] theorem State.loadFrame_responses (f : Frame) : (s.loadFrame f).responses = s.responses := rfl
@[simp] theorem State.loadFrame_issuers (f : Frame) : (s.loadFrame f).issuers = s.issuers := rfl
@[simp] theorem State.loadFrame_arrivals (f : Frame) : (s.loadFrame f).arrivals = s.arrivals := rfl
@[simp] theorem State.loadFrame_resets (f : Frame) : (s.loadFrame f).resets = s.resets := rfl
@[simp] theorem State.loadFrame_taken (f : Frame) : (s.loadFrame f).taken = s.taken := rfl

/-! ### sample and countMiss -/

@[simp] theorem State.sample_fst : s.sample.1 = s.dioIn := rfl
@[simp] theorem State.sample_snd : s.sample.2 = s.emit (.smp s.dioIn) := rfl
@[simp] theorem State.countMiss_params (a : Bool) : (s.countMiss a).params = s.params := by cases a <;> rfl
@[simp] theorem State.countMiss_phase (a : Bool) : (s.countMiss a).phase = s.phase := by cases a <;> rfl
@[simp] theorem State.countMiss_sub (a : Bool) : (s.countMiss a).sub = s.sub := by cases a <;> rfl
@[simp] theorem State.countMiss_bptr (a : Bool) : (s.countMiss a).bptr = s.bptr := by cases a <;> rfl
@[simp] theorem State.countMiss_rem (a : Bool) : (s.countMiss a).rem = s.rem := by cases a <;> rfl
@[simp] theorem State.countMiss_curLen (a : Bool) : (s.countMiss a).curLen = s.curLen := by cases a <;> rfl
@[simp] theorem State.countMiss_curB (a : Bool) : (s.countMiss a).curB = s.curB := by cases a <;> rfl
@[simp] theorem State.countMiss_head (a : Bool) : (s.countMiss a).head = s.head := by cases a <;> rfl
@[simp] theorem State.countMiss_tail (a : Bool) : (s.countMiss a).tail = s.tail := by cases a <;> rfl
@[simp] theorem State.countMiss_q (a : Bool) : (s.countMiss a).q = s.q := by cases a <;> rfl
@[simp] theorem State.countMiss_ackMiss (a : Bool) :
    (s.countMiss a).ackMiss = if a then satInc s.ackMiss else s.ackMiss := by
  cases a <;> rfl
@[simp] theorem State.countMiss_timerOn (a : Bool) : (s.countMiss a).timerOn = s.timerOn := by cases a <;> rfl
@[simp] theorem State.countMiss_clkOut (a : Bool) : (s.countMiss a).clkOut = s.clkOut := by cases a <;> rfl
@[simp] theorem State.countMiss_dioOut (a : Bool) : (s.countMiss a).dioOut = s.dioOut := by cases a <;> rfl
@[simp] theorem State.countMiss_trace (a : Bool) : (s.countMiss a).trace = s.trace := by cases a <;> rfl
@[simp] theorem State.countMiss_dioIn (a : Bool) : (s.countMiss a).dioIn = s.dioIn := by cases a <;> rfl
@[simp] theorem State.countMiss_responses (a : Bool) : (s.countMiss a).responses = s.responses := by cases a <;> rfl
@[simp] theorem State.countMiss_issuers (a : Bool) : (s.countMiss a).issuers = s.issuers := by cases a <;> rfl
@[simp] theorem State.countMiss_arrivals (a : Bool) : (s.countMiss a).arrivals = s.arrivals := by cases a <;> rfl
@[simp] theorem State.countMiss_resets (a : Bool) : (s.countMiss a).resets = s.resets := by cases a <;> rfl
@[simp] theorem State.countMiss_taken (a : Bool) : (s.countMiss a).taken = s.taken := by cases a <;> rfl

/-! ### wake -/

@[simp] theorem wake_params : (wake s).params = s.params := by unfold wake; split <;> rfl
@[simp] theorem wake_phase : (wake s).phase = s.phase := by unfold wake; split <;> rfl
@[simp] theorem wake_sub : (wake s).sub = s.sub := by unfold wake; split <;> rfl
@[simp] theorem wake_bptr : (wake s).bptr = s.bptr := by unfold wake; split <;> rfl
@[simp] theorem wake_rem : (wake s).rem = s.rem := by unfold wake; split <;> rfl
@[simp] theorem wake_curLen : (wake s).curLen = s.curLen := by unfold wake; split <;> rfl
@[simp] theorem wake_curB : (wake s).curB = s.curB := by unfold wake; split <;> rfl
@[simp] theorem wake_head : (wake s).head = s.head := by unfold wake; split <;> rfl
@[simp] theorem wake_tail : (wake s).tail = s.tail := by unfold wake; split <;> rfl
@[simp] theorem wake_q : (wake s).q = s.q := by unfold wake; split <;> rfl
@[simp] theorem wake_ackMiss : (wake s).ackMiss = s.ackMiss := by unfold wake; split <;> rfl
@[simp] theorem wake_timerOn : (wake s).timerOn = (s.timerOn || s.phase == IDLE) := by
  unfold wake; split <;> rename_i h <;> simp_all
@[simp] theorem wake_clkOut : (wake s).clkOut = s.clkOut := by unfold wake; split <;> rfl
@[simp] theorem wake_dioOut : (wake s).dioOut = s.dioOut := by unfold wake; split <;> rfl
@[simp] theorem wake_trace : (wake s).trace =
    if s.phase = IDLE ∧ s.timerOn = false then s.trace ++ [.tmrStart] else s.trace := by
  unfold wake; split <;> rfl
@[simp] theorem wake_dioIn : (wake s).dioIn = s.dioIn := by unfold wake; split <;> rfl
@[simp] theorem wake_responses : (wake s).responses = s.responses := by unfold wake; split <;> rfl
@[simp] theorem wake_issuers : (wake s).issuers = s.issuers := by unfold wake; split <;> rfl
@[simp] theorem wake_arrivals : (wake s).arrivals = s.arrivals := by unfold wake; split <;> rfl
@[simp] theorem wake_resets : (wake s).resets = s.resets := by unfold wake; split <;> rfl
@[simp] theorem wake_taken : (wake s).taken = s.taken := by unfold wake; split <;> rfl

/-! ### resetTransaction -/

@[simp] theorem resetTransaction_params : (resetTransaction s).params = s.params := rfl
@[simp] theorem resetTransaction_phase : (resetTransaction s).phase = IDLE := rfl
@[simp] theorem resetTransaction_sub : (resetTransaction s).sub = 0 := rfl
@[simp] theorem resetTransaction_bptr : (resetTransaction s).bptr = 0 := rfl
@[simp] theorem resetTransaction_rem : (resetTransaction s).rem = 0 := rfl
@[simp] theorem resetTransaction_curLen : (resetTransaction s).curLen = Config.freeCurLen (s.resets + 1) := rfl
@[simp] theorem resetTransaction_curB :
    (resetTransaction s).curB = Vector.ofFn fun k : Fin 7 => Config.freeCurByte (s.resets + 1) k := rfl
@[simp] theorem resetTransaction_head : (resetTransaction s).head = 0 := rfl
@[simp] theorem resetTransaction_tail : (resetTransaction s).tail = 0 := rfl
@[simp] theorem resetTransaction_q : (resetTransaction s).q = [] := rfl
@[simp] theorem resetTransaction_ackMiss : (resetTransaction s).ackMiss = 0 := rfl
@[simp] theorem resetTransaction_timerOn : (resetTransaction s).timerOn = false := rfl
@[simp] theorem resetTransaction_clkOut : (resetTransaction s).clkOut = true := rfl
@[simp] theorem resetTransaction_dioOut : (resetTransaction s).dioOut = true := rfl
@[simp] theorem resetTransaction_trace : (resetTransaction s).trace = s.trace := rfl
@[simp] theorem resetTransaction_dioIn : (resetTransaction s).dioIn = s.dioIn := rfl
@[simp] theorem resetTransaction_responses : (resetTransaction s).responses = s.responses := rfl
@[simp] theorem resetTransaction_issuers : (resetTransaction s).issuers = s.issuers := rfl
@[simp] theorem resetTransaction_arrivals : (resetTransaction s).arrivals = s.arrivals := rfl
@[simp] theorem resetTransaction_resets : (resetTransaction s).resets = s.resets + 1 := rfl
@[simp] theorem resetTransaction_taken : (resetTransaction s).taken = s.taken := rfl

/-! ### answered and accepted -/

@[simp] theorem answered_params (r : ResponseWord) : (answered s r).params = s.params := rfl
@[simp] theorem answered_phase (r : ResponseWord) : (answered s r).phase = s.phase := rfl
@[simp] theorem answered_sub (r : ResponseWord) : (answered s r).sub = s.sub := rfl
@[simp] theorem answered_bptr (r : ResponseWord) : (answered s r).bptr = s.bptr := rfl
@[simp] theorem answered_rem (r : ResponseWord) : (answered s r).rem = s.rem := rfl
@[simp] theorem answered_curLen (r : ResponseWord) : (answered s r).curLen = s.curLen := rfl
@[simp] theorem answered_curB (r : ResponseWord) : (answered s r).curB = s.curB := rfl
@[simp] theorem answered_head (r : ResponseWord) : (answered s r).head = s.head := rfl
@[simp] theorem answered_tail (r : ResponseWord) : (answered s r).tail = s.tail := rfl
@[simp] theorem answered_q (r : ResponseWord) : (answered s r).q = s.q := rfl
@[simp] theorem answered_ackMiss (r : ResponseWord) : (answered s r).ackMiss = s.ackMiss := rfl
@[simp] theorem answered_timerOn (r : ResponseWord) : (answered s r).timerOn = s.timerOn := rfl
@[simp] theorem answered_clkOut (r : ResponseWord) : (answered s r).clkOut = s.clkOut := rfl
@[simp] theorem answered_dioOut (r : ResponseWord) : (answered s r).dioOut = s.dioOut := rfl
@[simp] theorem answered_trace (r : ResponseWord) : (answered s r).trace = s.trace := rfl
@[simp] theorem answered_dioIn (r : ResponseWord) : (answered s r).dioIn = s.dioIn := rfl
@[simp] theorem answered_responses (r : ResponseWord) : (answered s r).responses = s.responses ++ [r] := rfl
@[simp] theorem answered_issuers (r : ResponseWord) : (answered s r).issuers = s.issuers := rfl
@[simp] theorem answered_arrivals (r : ResponseWord) : (answered s r).arrivals = s.arrivals := rfl
@[simp] theorem answered_resets (r : ResponseWord) : (answered s r).resets = s.resets := rfl
@[simp] theorem answered_taken (r : ResponseWord) : (answered s r).taken = s.taken := rfl
@[simp] theorem accepted_params (q : Memory) (h : Nat) : (accepted s q h).params = s.params := rfl
@[simp] theorem accepted_phase (q : Memory) (h : Nat) : (accepted s q h).phase = s.phase := rfl
@[simp] theorem accepted_sub (q : Memory) (h : Nat) : (accepted s q h).sub = s.sub := rfl
@[simp] theorem accepted_bptr (q : Memory) (h : Nat) : (accepted s q h).bptr = s.bptr := rfl
@[simp] theorem accepted_rem (q : Memory) (h : Nat) : (accepted s q h).rem = s.rem := rfl
@[simp] theorem accepted_curLen (q : Memory) (h : Nat) : (accepted s q h).curLen = s.curLen := rfl
@[simp] theorem accepted_curB (q : Memory) (h : Nat) : (accepted s q h).curB = s.curB := rfl
@[simp] theorem accepted_head (q : Memory) (h : Nat) : (accepted s q h).head = h := rfl
@[simp] theorem accepted_tail (q : Memory) (h : Nat) : (accepted s q h).tail = s.tail := rfl
@[simp] theorem accepted_q (q : Memory) (h : Nat) : (accepted s q h).q = q := rfl
@[simp] theorem accepted_ackMiss (q : Memory) (h : Nat) : (accepted s q h).ackMiss = s.ackMiss := rfl
@[simp] theorem accepted_timerOn (q : Memory) (h : Nat) : (accepted s q h).timerOn = (s.timerOn || s.phase == IDLE) := rfl
@[simp] theorem accepted_clkOut (q : Memory) (h : Nat) : (accepted s q h).clkOut = s.clkOut := rfl
@[simp] theorem accepted_dioOut (q : Memory) (h : Nat) : (accepted s q h).dioOut = s.dioOut := rfl
@[simp] theorem accepted_trace (q : Memory) (h : Nat) : (accepted s q h).trace =
    if s.phase = IDLE ∧ s.timerOn = false then s.trace ++ [.tmrStart] else s.trace := rfl
@[simp] theorem accepted_dioIn (q : Memory) (h : Nat) : (accepted s q h).dioIn = s.dioIn := rfl
@[simp] theorem accepted_responses (q : Memory) (h : Nat) : (accepted s q h).responses = s.responses ++ [0] := rfl
@[simp] theorem accepted_issuers (q : Memory) (h : Nat) : (accepted s q h).issuers = s.issuers := rfl
@[simp] theorem accepted_arrivals (q : Memory) (h : Nat) : (accepted s q h).arrivals = s.arrivals := rfl
@[simp] theorem accepted_resets (q : Memory) (h : Nat) : (accepted s q h).resets = s.resets := rfl
@[simp] theorem accepted_taken (q : Memory) (h : Nat) : (accepted s q h).taken = s.taken := rfl

end Sys2Proof.Machine
end

