-- ==== Sys2Proof/Laws/Ports.lean ====
section
/-! SUPPORT. What the producers present, which of it is taken, and the order of the events of one instant. -/

namespace Sys2Proof.Machine

/-! ### Producers -/

@[simp] theorem hasProducer_zero (p : Params) : p.hasProducer 0 = true := rfl

theorem mem_of_mem_ready {r : Request} {rs : List Request} (h : r ∈ ready rs) : r ∈ rs := by
  induction rs with
  | nil => exact h
  | cons r' rs ih =>
    rcases List.mem_cons.mp h with rfl | h
    · exact List.mem_cons_self
    · exact List.mem_cons_of_mem _ (ih (List.mem_of_mem_filter h))

@[simp] theorem ready_singleton (r : Request) : ready [r] = [r] := rfl

/-- Nothing is presented exactly when nothing is issued. -/
@[simp] theorem ready_eq_nil {rs : List Request} : ready rs = [] ↔ rs = [] := by
  cases rs <;> simp [ready]

theorem mem_of_pick {c : Nat} {r : Request} {rs : List Request} (h : pick c rs = some r) : r ∈ rs := by
  match rs with
  | [] => simp [pick] at h
  | [r'] => simp [pick] at h; simp [h]
  | r1 :: r2 :: rs =>
    simp only [pick, Option.some.injEq] at h
    have hk : c % (rs.length + 2) < (r1 :: r2 :: rs).length := Nat.mod_lt _ (by omega)
    rw [List.getD_eq_getElem _ _ hk] at h
    exact h ▸ List.getElem_mem hk

@[simp] theorem pick_eq_none {c : Nat} {rs : List Request} : pick c rs = none ↔ rs = [] := by
  match rs with
  | [] => simp [pick]
  | [_] => simp [pick]
  | _ :: _ :: _ => simp [pick]

/-! ### Commands that wait -/

/-- `carry` loses nothing and keeps the order. -/
theorem carry_commands (rs : List Request) (is : List Instant) :
    (carry rs is).flatMap Instant.commands = rs ++ is.flatMap Instant.commands := by
  match rs, is with
  | [], _ => rfl
  | _ :: _, [] => simp [carry]
  | _ :: _, _ :: _ => simp [carry]

@[simp] theorem carry_nil (is : List Instant) : carry [] is = is := rfl

/-! ### Events -/

/-- The events of one instant come in the order RESET, one of the commands presented, TICK (R214). -/
theorem nextEvent_reset (p : Params) (c : Nat) (i : Instant) (rest : List Instant) (h : i.reset = true) :
    nextEvent p c (i :: rest) = some (.reset, { i with reset := false } :: rest) := by
  simp [nextEvent, h]

theorem nextEvent_command {p : Params} {c : Nat} {i : Instant} {r : Request} (rest : List Instant)
    (hr : i.reset = false) (hp : pick c (ready (i.issued p)) = some r) :
    nextEvent p c (i :: rest) =
      some (.command r, { i with commands := [] } :: carry ((i.issued p).erase r) rest) := by
  simp [nextEvent, hr, hp]

theorem nextEvent_tick {p : Params} {i : Instant} {a : Bool} (c : Nat) (rest : List Instant)
    (hr : i.reset = false) (hc : i.issued p = []) (ht : i.tick = some a) :
    nextEvent p c (i :: rest) = some (.tick a, rest) := by
  simp [nextEvent, hr, hc, ht, ready, pick]

@[simp] theorem nextEvent_ofCommand (p : Params) (c : Nat) (w : CommandWord) (rest : List Instant) :
    nextEvent p c (Instant.ofCommand w :: rest) =
      some (.command ⟨0, w⟩, { reset := false, commands := [], tick := none } :: rest) := by
  have h : (Instant.ofCommand w).issued p = [⟨0, w⟩] := rfl
  rw [nextEvent_command (r := ⟨0, w⟩) rest rfl (by rw [h]; rfl), h, List.erase_cons_head, carry_nil]
  rfl

@[simp] theorem nextEvent_ofTick (p : Params) (c : Nat) (a : Bool) (rest : List Instant) :
    nextEvent p c (Instant.ofTick a :: rest) = some (.tick a, rest) :=
  nextEvent_tick c rest rfl rfl rfl

/-- An instant at which nothing arrives is passed over. -/
@[simp] theorem nextEvent_quiet (p : Params) (c : Nat) (rest : List Instant) :
    nextEvent p c ({ reset := false, commands := [], tick := none } :: rest) = nextEvent p c rest := rfl

end Sys2Proof.Machine
end

