-- ==== Sys2Proof/Laws/Memory.lean ====
section
/-! SUPPORT. The slot file: read after write, and the canonical form that every write keeps. -/

namespace Sys2Proof.Machine

@[simp] theorem Memory.read_nil (i : Nat) : Memory.read [] i = none := rfl

/-- A write changes the slot written and no other. -/
theorem Memory.read_write (q : Memory) (i j : Nat) (f : Frame) :
    (q.write i f).read j = if j = i then some f else q.read j := by
  induction q with
  | nil => by_cases h : i = j <;> simp [Memory.write, Memory.read, h, eq_comm]
  | cons e q ih =>
    obtain ⟨k, g⟩ := e
    simp only [Memory.write]
    split
    · simp only [Memory.read]
      by_cases h : i = j <;> simp [h, eq_comm]
    · split
      · simp only [Memory.read]
        by_cases h : i = j <;> simp_all [eq_comm]
      · simp only [Memory.read, ih]
        by_cases h : j = i <;> simp_all [eq_comm]

@[simp] theorem Memory.read_write_same (q : Memory) (i : Nat) (f : Frame) :
    (q.write i f).read i = some f := by simp [Memory.read_write]

theorem Memory.read_write_other {q : Memory} {i j : Nat} {f : Frame} (h : j ≠ i) :
    (q.write i f).read j = q.read j := by simp [Memory.read_write, h]

/-- What a write lists is the record written or was listed before. -/
theorem Memory.mem_write {q : Memory} {i : Nat} {f : Frame} {e : Nat × Frame}
    (h : e ∈ q.write i f) : e = (i, f) ∨ e ∈ q := by
  induction q with
  | nil => simpa [Memory.write] using h
  | cons c q ih =>
    obtain ⟨k, g⟩ := c
    simp only [Memory.write] at h
    split at h
    · simpa using h
    · split at h <;> simp only [List.mem_cons] at h ⊢
      · tauto
      · rcases h with h | h
        · exact .inr (.inl h)
        · rcases ih h with h | h <;> simp [h]

/-- A listed slot is read as what is listed. -/
theorem Memory.mem_of_read {q : Memory} {i : Nat} {f : Frame} (h : q.read i = some f) : (i, f) ∈ q := by
  induction q with
  | nil => simp at h
  | cons c q ih =>
    obtain ⟨k, g⟩ := c
    simp only [Memory.read] at h
    split at h
    · simp_all
    · exact List.mem_cons_of_mem _ (ih h)

/-- Every write keeps the canonical form. -/
theorem Memory.wf_write {q : Memory} (h : q.wf) (i : Nat) (f : Frame) : (q.write i f).wf := by
  induction q with
  | nil => simp [Memory.write, Memory.wf]
  | cons c q ih =>
    obtain ⟨k, g⟩ := c
    obtain ⟨hk, hq⟩ := List.pairwise_cons.mp h
    simp only [Memory.write]
    split
    · rename_i hik
      refine List.pairwise_cons.mpr ⟨?_, h⟩
      rintro e he
      rcases List.mem_cons.mp he with rfl | he
      · exact hik
      · exact hik.trans (hk e he)
    · split
      · rename_i _ hik
        subst hik
        exact List.pairwise_cons.mpr ⟨hk, hq⟩
      · rename_i h1 h2
        refine List.pairwise_cons.mpr ⟨?_, ih hq⟩
        rintro e he
        rcases Memory.mem_write he with rfl | he
        · show k < i
          omega
        · exact hk e he

/-- The slot file of a block right after reset is canonical. -/
theorem Memory.wf_nil : Memory.wf [] := List.Pairwise.nil

/-- Canonical slot files that read alike are the same list. -/
theorem Memory.ext_of_wf {q r : Memory} (hq : q.wf) (hr : r.wf) (h : ∀ i, q.read i = r.read i) : q = r := by
  have none_below : ∀ {q : Memory} {k : Nat}, (∀ e ∈ q, k < e.1) → q.read k = none := by
    intro q k hlt
    cases hread : Memory.read q k with
    | none => rfl
    | some f => exact absurd (hlt _ (Memory.mem_of_read hread)) (lt_irrefl _)
  induction q generalizing r with
  | nil =>
    cases r with
    | nil => rfl
    | cons c r => obtain ⟨k, g⟩ := c; simpa [Memory.read] using h k
  | cons c q ih =>
    obtain ⟨k, g⟩ := c
    obtain ⟨hk, hq'⟩ := List.pairwise_cons.mp hq
    cases r with
    | nil => simpa [Memory.read] using h k
    | cons d r =>
      obtain ⟨l, g'⟩ := d
      obtain ⟨hl, hr'⟩ := List.pairwise_cons.mp hr
      have hkl : k = l := by
        rcases lt_trichotomy k l with hlt | heq | hgt
        · have := h k
          rw [none_below (q := (l, g') :: r) (k := k) (by
            intro e he
            rcases List.mem_cons.mp he with rfl | he
            · exact hlt
            · exact hlt.trans (hl e he))] at this
          simp [Memory.read] at this
        · exact heq
        · have := h l
          rw [none_below (q := (k, g) :: q) (k := l) (by
            intro e he
            rcases List.mem_cons.mp he with rfl | he
            · exact hgt
            · exact hgt.trans (hk e he))] at this
          simp [Memory.read] at this
      subst hkl
      have hg : g = g' := by simpa [Memory.read] using h k
      subst hg
      congr 1
      refine ih hq' hr' fun i => ?_
      by_cases hi : i = k
      · subst hi
        rw [none_below hk, none_below hl]
      · simpa [Memory.read, Ne.symm hi] using h i

/-- A slot write that answers wrote that slot, which exists. -/
theorem memWrite_cases {i : Nat} {f : Frame} {s t : State} (h : memWrite i f s = .ok t) :
    i < s.params.n ∧ t = { s with q := s.q.write i f } := by
  unfold memWrite at h
  split at h
  · exact ⟨‹_›, by simpa using h.symm⟩
  · simp at h

theorem memWrite_of_lt {i : Nat} {s : State} (h : i < s.params.n) (f : Frame) :
    memWrite i f s = .ok { s with q := s.q.write i f } := by simp [memWrite, h]

/-- A slot read of a written slot that exists answers what was written. -/
theorem memRead_of_read {i : Nat} {s : State} {f : Frame} (h : i < s.params.n) (hr : s.q.read i = some f) :
    memRead i s = .ok f := by simp [memRead, h, hr]

end Sys2Proof.Machine
end

