-- ==== Sys2Proof/Laws/Flags.lean ====
section
/-! SUPPORT. Index arithmetic modulo `N` and the flags of the queue, in terms that `omega` reads. -/

namespace Sys2Proof.Machine

/-- A slot index fits in `IDXW` bits (R6). -/
theorem le_two_pow_idxWidth (n : Nat) : n ≤ 2 ^ idxWidth n := by
  have := Nat.lt_log2_self (n := n - 1)
  unfold idxWidth
  omega

@[simp] theorem toIndex_of_lt {n i : Nat} (h : i < n) : toIndex n i = i :=
  Nat.mod_eq_of_lt (Nat.lt_of_lt_of_le h (le_two_pow_idxWidth n))

theorem toIndex_lt (n i : Nat) : toIndex n i < 2 ^ idxWidth n := Nat.mod_lt _ (Nat.two_pow_pos _)

/-- The slot after a slot is a slot. -/
theorem inc_lt_of_lt {n i : Nat} (h : i < n) : inc n i < n := by
  unfold inc; split <;> omega

/-- Writing an index that names a slot loses no bit of it. -/
theorem State.setHead_of_lt {s : State} {i : Nat} (h : i < s.params.n) : s.setHead i = { s with head := i } := by
  simp only [State.setHead, toIndex_of_lt h]

theorem State.setTail_of_lt {s : State} {i : Nat} (h : i < s.params.n) : s.setTail i = { s with tail := i } := by
  simp only [State.setTail, toIndex_of_lt h]

theorem inc_lt {n i : Nat} (hn : 3 ≤ n) (h : i < n) : inc n i < n := by
  unfold inc; split <;> omega

/-- `inc` is the successor modulo `N` (R61, R116). -/
theorem inc_eq_mod {n i : Nat} (h : i < n) : inc n i = (i + 1) % n := by
  unfold inc
  split
  · have : i + 1 = n := by omega
    simp [this]
  · exact (Nat.mod_eq_of_lt (by omega)).symm

/-- `COUNT` without the remainder (R32). -/
theorem count_eq {s : State} (hh : s.head < s.params.n) (ht : s.tail < s.params.n) :
    count s = if s.tail ≤ s.head then s.head - s.tail else s.head + s.params.n - s.tail := by
  unfold count
  split
  · rw [Int.emod_eq_of_lt] <;> omega
  · rw [← Int.add_emod_right, Int.emod_eq_of_lt] <;> omega

theorem count_congr {s t : State} (hp : s.params = t.params) (hh : s.head = t.head) (ht : s.tail = t.tail) :
    count s = count t := by simp [count, hp, hh, ht]

theorem free_congr {s t : State} (hp : s.params = t.params) (hh : s.head = t.head) (ht : s.tail = t.tail) :
    free s = free t := by simp [free, hp, count_congr hp hh ht]

/-- `COUNT` is at most N - 1 (R32). -/
theorem count_lt {s : State} (h : QueueOk s) : count s < s.params.n := by
  rw [count_eq h.2.1 h.2.2]; have := h.2.1; have := h.2.2; split <;> omega

theorem isEmpty_iff (s : State) : isEmpty s = true ↔ s.head = s.tail := by simp [isEmpty]

/-- `EMPTY` exactly when `COUNT` = 0. -/
theorem isEmpty_iff_count {s : State} (h : QueueOk s) : isEmpty s = true ↔ count s = 0 := by
  rw [isEmpty_iff, count_eq h.2.1 h.2.2]; have := h.2.1; have := h.2.2; split <;> omega

/-- `FULL` exactly when `FREE` = 0 (R112). -/
theorem isFull_iff_free {s : State} (h : QueueOk s) : isFull s = true ↔ free s = 0 := by
  obtain ⟨⟨hn, _, _⟩, hh, ht⟩ := h
  simp only [isFull, free, inc, count_eq hh ht, beq_iff_eq]
  split <;> split <;> omega

/-- One frame written: `COUNT` grows by one (R120). -/
theorem count_enq {s t : State} (h : QueueOk s) (hf : isFull s = false) (hp : t.params = s.params)
    (hh : t.head = inc s.params.n s.head) (ht : t.tail = s.tail) : count t = count s + 1 := by
  obtain ⟨⟨hn, _, _⟩, hhd, htl⟩ := h
  have hlt : inc s.params.n s.head < s.params.n := inc_lt hn hhd
  have hne : inc s.params.n s.head ≠ s.tail := by simpa [isFull] using hf
  rw [count_eq hhd htl, count_eq (by rw [hh, hp]; exact hlt) (by rw [ht, hp]; exact htl), hp, hh, ht]
  unfold inc at *
  split at hne <;> split <;> split <;> (try split) <;> omega

/-- One frame taken: `COUNT` falls by one (R120). -/
theorem count_deq {s t : State} (h : QueueOk s) (he : isEmpty s = false) (hp : t.params = s.params)
    (hh : t.head = s.head) (ht : t.tail = inc s.params.n s.tail) : count s = count t + 1 := by
  obtain ⟨⟨hn, _, _⟩, hhd, htl⟩ := h
  have hlt : inc s.params.n s.tail < s.params.n := inc_lt hn htl
  have hne : s.head ≠ s.tail := by simpa [isEmpty] using he
  rw [count_eq hhd htl, count_eq (by rw [hh, hp]; exact hhd) (by rw [ht, hp]; exact hlt), hp, hh, ht]
  unfold inc at *
  split <;> split <;> (try split) <;> omega

theorem satInc_toNat (v : BitVec 8) : (satInc v).toNat = min (v.toNat + 1) 255 := by
  unfold satInc
  split
  · subst_vars; rfl
  · rename_i h
    have : v.toNat ≠ 255 := fun hv => h (BitVec.eq_of_toNat_eq hv)
    have := v.isLt
    simp only [BitVec.toNat_add, show BitVec.toNat (1 : BitVec 8) = 1 from rfl]
    omega

end Sys2Proof.Machine
end

