-- ==== Sys2Proof/Laws/Queue.lean ====
section
/-! SUPPORT. What each shared operation over the queue can do, said once. -/

namespace Sys2Proof.Machine

/-- Everything `Q_ENQ` can answer (R113). -/
theorem qEnq_cases {f : Frame} {s t : State} {b : Bool} (h : qEnq f s = .ok (b, t)) :
    (b = false ∧ isFull s = true ∧ t = s) ∨
    (b = true ∧ isFull s = false ∧ s.head < s.params.n ∧
      t = { s with q := s.q.write s.head f, head := inc s.params.n s.head }) := by
  unfold qEnq at h
  split at h
  · simp_all
  · split at h
    · simp at h
    · rename_i s1 hw
      obtain ⟨hlt, rfl⟩ := memWrite_cases hw
      simp only [Except.ok.injEq, Prod.mk.injEq] at h
      obtain ⟨rfl, rfl⟩ := h
      exact .inr ⟨rfl, by simp_all, hlt, State.setHead_of_lt (inc_lt_of_lt hlt)⟩

/-- Everything `Q_ENQ2` can answer (R114). -/
theorem qEnq2_cases {f1 f2 : Frame} {s t : State} {b : Bool} (h : qEnq2 f1 f2 s = .ok (b, t)) :
    (b = false ∧ free s < 2 ∧ t = s) ∨
    (b = true ∧ 2 ≤ free s ∧ s.head < s.params.n ∧ inc s.params.n s.head < s.params.n ∧
      t = { s with q := (s.q.write s.head f1).write (inc s.params.n s.head) f2, head := inc s.params.n (inc s.params.n s.head) }) := by
  unfold qEnq2 at h
  split at h
  · simp_all
  · split at h
    · simp at h
    · rename_i s1 hw
      obtain ⟨hlt, rfl⟩ := memWrite_cases hw
      split at h
      · simp at h
      · rename_i s2 hw2
        obtain ⟨hlt2, rfl⟩ := memWrite_cases hw2
        simp only [Except.ok.injEq, Prod.mk.injEq] at h
        obtain ⟨rfl, rfl⟩ := h
        exact .inr ⟨rfl, by omega, hlt, hlt2, State.setHead_of_lt (inc_lt_of_lt hlt2)⟩

/-- Everything `Q_DEQ` can answer (R115). -/
theorem qDeq_cases {s t : State} {o : Option Frame} (h : qDeq s = .ok (o, t)) :
    (o = none ∧ isEmpty s = true ∧ t = s) ∨
    (isEmpty s = false ∧ s.tail < s.params.n ∧
      o = some ((s.q.read s.tail).getD (Frame.unwritten s.resets s.tail)) ∧ t = { s with tail := inc s.params.n s.tail }) := by
  unfold qDeq at h
  split at h
  · simp_all
  · unfold memRead at h
    split at h
    · simp at h
    · rename_i he f hf
      split at hf
      · simp only [Except.ok.injEq, Prod.mk.injEq] at h hf
        obtain ⟨rfl, rfl⟩ := h
        exact .inr ⟨by simp_all, ‹_›, by rw [hf], State.setTail_of_lt (inc_lt_of_lt ‹_›)⟩
      · simp at hf

/-- `Q_DEQ` on an empty queue changes nothing (R119). -/
theorem qDeq_empty {s : State} (h : isEmpty s = true) : qDeq s = .ok (none, s) := by simp [qDeq, h]

/-- `Q_DEQ` takes the frame written at `TAIL` (R115). -/
theorem qDeq_written {s : State} {f : Frame} (h : isEmpty s = false) (ht : s.tail < s.params.n)
    (hr : s.q.read s.tail = some f) : qDeq s = .ok (some f, { s with tail := inc s.params.n s.tail }) := by
  simp [qDeq, h, memRead_of_read ht hr, State.setTail_of_lt (inc_lt_of_lt ht)]

/-- The wake and the response `OK` after an enqueue. -/
theorem respond_wake (s : State) : (wake s).respond .ok false 0 = accepted s s.q s.head := by
  unfold wake accepted
  by_cases hw : s.phase = IDLE ∧ s.timerOn = false
  · have ht : (s.timerOn || s.phase == IDLE) = true := by simp [hw.1]
    rw [if_pos hw, if_pos hw, ht]; rfl
  · have ht : (s.timerOn || s.phase == IDLE) = s.timerOn := by
      rcases not_and_or.mp hw with h1 | h1 <;> simp_all
    rw [if_neg hw, if_neg hw, ht]; rfl

/-- `SUBMIT` of one frame when there is room (R170). -/
theorem submit_one_free {s : State} (h : QueueOk s) (hf : 1 ≤ free s) (f : Frame) :
    submit (.one f) s = .next (accepted s (s.q.write s.head f) (inc s.params.n s.head)) := by
  have hne : isFull s = false := by
    cases hx : isFull s with
    | false => rfl
    | true => have := (isFull_iff_free h).mp hx; omega
  have hlt : ¬ free s < 1 := by omega
  simp only [submit, Batch.size, if_neg hlt, Batch.enqueue, qEnq, hne, memWrite_of_lt h.2.1]
  rw [State.setHead_of_lt (s := { s with q := s.q.write s.head f }) (inc_lt_of_lt h.2.1)]
  simp only [respond_wake]
  rfl

/-- `SUBMIT` of two frames when there is room for both (R170). -/
theorem submit_two_free {s : State} (h : QueueOk s) (hf : 2 ≤ free s) (f1 f2 : Frame) :
    submit (.two f1 f2) s = .next (acceptedTwo s f1 f2) := by
  have hlt : ¬ free s < 2 := by omega
  have hi : inc s.params.n s.head < s.params.n := inc_lt h.1.1 h.2.1
  simp only [submit, Batch.size, if_neg hlt, Batch.enqueue, qEnq2, memWrite_of_lt h.2.1]
  rw [memWrite_of_lt (s := { s with q := s.q.write s.head f1 }) hi]
  simp only
  rw [State.setHead_of_lt (by exact inc_lt_of_lt hi)]
  simp only [respond_wake]
  rfl

/-- `SUBMIT` without room answers `ERR_FULL` and changes nothing else (R170, R231). -/
theorem submit_full {s : State} {fs : Batch} (h : free s < fs.size) :
    submit fs s = .next (answered s 1) := by
  simp only [submit, h, if_true]; rfl

/-- Everything `SUBMIT` can answer in a state whose indices name slots: `ERR_FULL` with nothing else changed, or
the frames written and the timer woken. -/
theorem submit_cases {s : State} (h : QueueOk s) (fs : Batch) :
    (free s < fs.size ∧ submit fs s = .next (answered s 1)) ∨
    (fs.size ≤ free s ∧ ∃ q hd, submit fs s = .next (accepted s q hd)) := by
  by_cases hf : free s < fs.size
  · exact .inl ⟨hf, submit_full hf⟩
  · refine .inr ⟨by omega, ?_⟩
    cases fs with
    | one f => exact ⟨_, _, submit_one_free h (by simpa [Batch.size] using Nat.not_lt.mp hf) f⟩
    | two f1 f2 => exact ⟨_, _, submit_two_free h (by simpa [Batch.size] using Nat.not_lt.mp hf) f1 f2⟩

/-! ### Places in the queue -/

/-- No queued frame lies in the slot `HEAD`. -/
theorem place_ne_head {s : State} (h : QueueOk s) {j : Nat} (hj : j < count s) :
    (s.tail + j) % s.params.n ≠ s.head := by
  obtain ⟨⟨hn, _, _⟩, hh, ht⟩ := h
  rw [count_eq hh ht] at hj
  intro he
  by_cases hc : s.tail + j < s.params.n
  · rw [Nat.mod_eq_of_lt hc] at he; split at hj <;> omega
  · rw [Nat.mod_eq_sub_mod (by omega), Nat.mod_eq_of_lt (by split at hj <;> omega)] at he
    split at hj <;> omega

/-- The place after the last queued frame is the slot `HEAD`. -/
theorem place_count {s : State} (h : QueueOk s) : (s.tail + count s) % s.params.n = s.head := by
  obtain ⟨⟨hn, _, _⟩, hh, ht⟩ := h
  rw [count_eq hh ht]
  split
  · rw [show s.tail + (s.head - s.tail) = s.head by omega, Nat.mod_eq_of_lt hh]
  · rw [show s.tail + (s.head + s.params.n - s.tail) = s.head + s.params.n by omega, Nat.add_mod_right,
      Nat.mod_eq_of_lt hh]

/-- A frame built from one to seven bytes is laid out as R62 says. -/
theorem Frame.legal_of (bs : List Byte) (h : bs ≠ []) (h7 : bs.length ≤ 7) : (Frame.of bs).Legal := by
  have hl : (BitVec.ofNat 3 bs.length).toNat = bs.length := by simp; omega
  refine ⟨fun h0 => ?_, fun k hk => ?_⟩
  · have h1 : (BitVec.ofNat 3 bs.length).toNat = 0 := by
      rw [show BitVec.ofNat 3 bs.length = 0 from h0]; rfl
    rw [hl] at h1
    exact h (List.length_eq_zero_iff.mp h1)
  · have hk' : bs.length ≤ k.val := by simpa [Frame.of, hl] using hk
    simp [Frame.of, List.getElem?_eq_none hk']

end Sys2Proof.Machine
end

