-- ==== Sys2Proof/Laws/Step.lean ====
section
/-! SUPPORT. What a transaction and a step can do, said once; runs put end to end. -/

namespace Sys2Proof.Machine

/-! ### Answers -/

theorem raise_errFull (s : State) : s.raise .errFull = answered s 1 := rfl
theorem raise_errLen (s : State) : s.raise .errLen = answered s 2 := rfl
theorem raise_errIllegal (s : State) : s.raise .errIllegal = answered s 3 := rfl

/-! ### Transactions -/

/-- Everything a command transaction can be: the meaning of the decoded instruction, or `ERR_ILLEGAL` and nothing
else (R170). -/
theorem commandTransaction_cases (w : CommandWord) (s : State) :
    (∃ i, decodeCommand w = .ok i ∧ commandTransaction w s = exec i s) ∨
    (∃ e, decodeCommand w = .error e ∧ commandTransaction w s = .next (answered s 3)) := by
  unfold commandTransaction
  cases h : decodeCommand w with
  | ok i => exact .inl ⟨i, rfl, rfl⟩
  | error e => exact .inr ⟨e, rfl, rfl⟩

/-- Everything a tick can be: dropped at the closed gate, the micro-step of `U`, or the fault of R147. -/
theorem tickTransaction_cases (a : Bool) (s : State) :
    (s.timerOn = false ∧ tickTransaction a s = .next s) ∨
    (s.timerOn = true ∧ ∃ i, decodeMicro (microState s) = .ok i ∧
      tickTransaction a s = exec i { s with dioIn := a }) ∨
    (s.timerOn = true ∧ ∃ e, decodeMicro (microState s) = .error e ∧
      tickTransaction a s = .fault .unreachableMicroState) := by
  unfold tickTransaction
  cases ht : s.timerOn with
  | false => exact .inl ⟨rfl, rfl⟩
  | true =>
    cases h : decodeMicro (microState s) with
    | ok i => exact .inr (.inl ⟨rfl, i, rfl, rfl⟩)
    | error e => exact .inr (.inr ⟨rfl, e, rfl, rfl⟩)

/-- Everything a step that answers a next state can be: nothing arrives and nothing changes, or one event was
taken, as one transaction. -/
theorem step_cases {s t : State} (h : step s = .next t) :
    (upcoming s = none ∧ t = s) ∨
    (∃ e rest, upcoming s = some (e, rest) ∧
      transact e { s with arrivals := rest, taken := s.taken + 1 } = .next t) := by
  unfold step at h
  split at h
  · rename_i hn
    exact .inl ⟨hn, by simpa using h.symm⟩
  · rename_i e rest hn
    exact .inr ⟨e, rest, hn, h⟩

/-! ### Runs -/

@[simp] theorem run_zero (s : State) : run 0 s = .next s := rfl

theorem run_succ_of_step {s t : State} (k : Nat) (h : step s = .next t) : run (k + 1) s = run k t := by
  simp [run, h]

/-- Runs put end to end. -/
theorem run_add {j k : Nat} {s t : State} (h : run j s = .next t) : run (j + k) s = run k t := by
  induction j generalizing s with
  | zero => simp_all [run]
  | succ j ih =>
    rw [show j + 1 + k = (j + k) + 1 by omega]
    cases hs : step s with
    | next u =>
      rw [run_succ_of_step _ hs] at h ⊢
      exact ih h
    | fault r => simp [run, hs] at h
    | refused r => simp [run, hs] at h

/-- What holds at reset and is kept by every step holds of every reachable state. -/
theorem Reachable.induct {P : State → Prop} (hboot : ∀ p arrivals, p.Legal → P (State.boot p arrivals))
    (hstep : ∀ s t, P s → step s = .next t → P t) {s : State} (h : Reachable s) : P s := by
  induction h with
  | boot p arrivals hp => exact hboot p arrivals hp
  | after s t _ hst ih => exact hstep s t ih hst

end Sys2Proof.Machine
end

