-- ==== Sys2Proof/Laws/Encoding.lean ====
section
/-! SUPPORT. The bits of an encoded command word and of the decoder's fields. -/

namespace Sys2Proof

/-- The bits of a command word, field by field (R80). -/
theorem commandWord_getLsbD (op : BitVec 4) (len : BitVec 3) (b0 b1 b2 b3 b4 b5 b6 : Byte) (i : Nat) :
    (commandWord op len b0 b1 b2 b3 b4 b5 b6).getLsbD i =
      if i < 4 then op.getLsbD i else if i < 7 then len.getLsbD (i - 4) else if i < 8 then false
      else if i < 16 then b0.getLsbD (i - 8) else if i < 24 then b1.getLsbD (i - 16)
      else if i < 32 then b2.getLsbD (i - 24) else if i < 40 then b3.getLsbD (i - 32)
      else if i < 48 then b4.getLsbD (i - 40) else if i < 56 then b5.getLsbD (i - 48)
      else b6.getLsbD (i - 56) := by
  simp only [commandWord, BitVec.getLsbD_append, Nat.sub_sub]
  by_cases h0 : i < 4
  · simp [h0]
  have e1 : (i - 4 < 3) = (i < 7) := by simp only [eq_iff_iff]; omega
  by_cases h1 : i < 7
  · simp [h0, h1, e1]
  have e2 : (i - (4 + 3) < 1) = (i < 8) := by simp only [eq_iff_iff]; omega
  by_cases h2 : i < 8
  · simp [h0, h1, h2, e1, e2]
  have e3 : (i - (4 + 3 + 1) < 8) = (i < 16) := by simp only [eq_iff_iff]; omega
  have e4 : (i - (4 + 3 + 1 + 8) < 8) = (i < 24) := by simp only [eq_iff_iff]; omega
  have e5 : (i - (4 + 3 + 1 + 8 + 8) < 8) = (i < 32) := by simp only [eq_iff_iff]; omega
  have e6 : (i - (4 + 3 + 1 + 8 + 8 + 8) < 8) = (i < 40) := by simp only [eq_iff_iff]; omega
  have e7 : (i - (4 + 3 + 1 + 8 + 8 + 8 + 8) < 8) = (i < 48) := by simp only [eq_iff_iff]; omega
  have e8 : (i - (4 + 3 + 1 + 8 + 8 + 8 + 8 + 8) < 8) = (i < 56) := by simp only [eq_iff_iff]; omega
  simp only [h0, h1, h2, e1, e2, e3, e4, e5, e6, e7, e8, if_false]

/-- The fields the decoder reads, bit by bit. -/
theorem opField_commandWord (op : BitVec 4) (len : BitVec 3) (b0 b1 b2 b3 b4 b5 b6 : Byte) :
    opField (commandWord op len b0 b1 b2 b3 b4 b5 b6) = op := by
  ext i hi
  simp [opField, commandWord_getLsbD, hi]

theorem lenField_commandWord (op : BitVec 4) (len : BitVec 3) (b0 b1 b2 b3 b4 b5 b6 : Byte) :
    lenField (commandWord op len b0 b1 b2 b3 b4 b5 b6) = len := by
  ext i hi
  have h4 : ¬ 4 + i < 4 := by omega
  have h7 : 4 + i < 7 := by omega
  simp [lenField, commandWord_getLsbD, hi, h7]

theorem zField_commandWord (op : BitVec 4) (len : BitVec 3) (b0 b1 b2 b3 b4 b5 b6 : Byte) :
    zField (commandWord op len b0 b1 b2 b3 b4 b5 b6) = false := by
  simp only [zField, commandWord_getLsbD]
  rfl

/-- Lane k of an encoded word is byte k (R63). -/
theorem lane_commandWord (op : BitVec 4) (len : BitVec 3) (b : Vector Byte 7) (k : Fin 7) :
    lane (commandWord op len b[0] b[1] b[2] b[3] b[4] b[5] b[6]) k = b[k] := by
  apply BitVec.eq_of_getLsbD_eq
  intro i hi
  obtain ⟨k, hk⟩ := k
  simp only [lane, BitVec.getLsbD_extractLsb', hi, decide_true, Bool.true_and, commandWord_getLsbD,
    Fin.getElem_fin]
  have : k = 0 ∨ k = 1 ∨ k = 2 ∨ k = 3 ∨ k = 4 ∨ k = 5 ∨ k = 6 := by omega
  rcases this with rfl | rfl | rfl | rfl | rfl | rfl | rfl
  all_goals
    repeat rw [if_neg (by omega)]
    try rw [if_pos (by omega)]
    congr 1
    omega

/-! ### Micro-states -/

namespace Machine

theorem phaseField_microState (s : State) : phaseField (microState s) = s.phase := by
  have h : ∀ (p : BitVec 3) (k : BitVec 4), phaseField (p ++ k) = p := by decide
  exact h _ _

theorem subField_microState (s : State) : subField (microState s) = s.sub := by
  have h : ∀ (p : BitVec 3) (k : BitVec 4), subField (p ++ k) = k := by decide
  exact h _ _

end Machine

end Sys2Proof
end

