-- ==== Sys2Proof/Laws/PerInstr.lean ====
section
/-! SUPPORT. Per instruction: its word fits its row of spec/opcode_table.json, the row's `match` under the row's
`mask`. -/

namespace Sys2Proof.Laws.TableRow

open Sys2Proof

/-- The instruction's encoding fits its row of the opcode table. -/
def Statement (i : Instr) : Prop := (encode i).fits i.tableRow = true

/-- A command fits its row when it does so bit by bit. -/
theorem fits_of_bits {w : CommandWord} {m mask : Nat}
    (h : ∀ i < 64, (w.getLsbD i && (BitVec.ofNat 64 mask).getLsbD i) = (BitVec.ofNat 64 m).getLsbD i) :
    (Encoding.command w).fits (m, mask) = true := by
  simp only [Encoding.fits, beq_iff_eq]
  exact BitVec.eq_of_getLsbD_eq fun i hi => by simpa using h i hi

theorem enq (len : BitVec 3) (b : Vector Byte 7) : Statement (.enq len b) :=
  fits_of_bits fun i hi => by rw [commandWord_getLsbD]; interval_cases i <;> simp

theorem wrdisp (c : BitVec 3) (a : Byte) (segs : Vector Byte 6) : Statement (.wrdisp c a segs) :=
  fits_of_bits fun i hi => by rw [commandWord_getLsbD]; interval_cases i <;> simp

theorem wrseg (a : Byte) (seg : Byte) : Statement (.wrseg a seg) :=
  fits_of_bits fun i hi => by rw [commandWord_getLsbD]; interval_cases i <;> simp

theorem bright (lvl : BitVec 3) : Statement (.bright lvl) :=
  fits_of_bits fun i hi => by rw [commandWord_getLsbD]; interval_cases i <;> simp

theorem don : Statement (.don) := by unfold Statement; decide

theorem doff : Statement (.doff) := by unfold Statement; decide

theorem ackrc : Statement (.ackrc) := by unfold Statement; decide

theorem stat : Statement (.stat) := by unfold Statement; decide

theorem wrbyte (b : Byte) : Statement (.wrbyte b) :=
  fits_of_bits fun i hi => by rw [commandWord_getLsbD]; interval_cases i <;> simp

theorem uIdle : Statement (.uIdle) := by unfold Statement; decide

theorem uStart0 : Statement (.uStart0) := by unfold Statement; decide

theorem uStart1 : Statement (.uStart1) := by unfold Statement; decide

theorem uStart2 : Statement (.uStart2) := by unfold Statement; decide

theorem uWbit (k : BitVec 3) : Statement (.uWbit k) := by unfold Statement; revert k; decide

theorem uWprep : Statement (.uWprep) := by unfold Statement; decide

theorem uWclkh : Statement (.uWclkh) := by unfold Statement; decide

theorem uAcks : Statement (.uAcks) := by unfold Statement; decide

theorem uAcke : Statement (.uAcke) := by unfold Statement; decide

theorem uStop0 : Statement (.uStop0) := by unfold Statement; decide

theorem uStop1 : Statement (.uStop1) := by unfold Statement; decide

theorem uStop2 : Statement (.uStop2) := by unfold Statement; decide

theorem uStop3 : Statement (.uStop3) := by unfold Statement; decide

theorem uDone : Statement (.uDone) := by unfold Statement; decide

end Sys2Proof.Laws.TableRow
end

