-- ==== Sys2Proof/Tests/Slice0.lean ====
section
/-! SUPPORT. The model's own tests. Words and expected values are those of spec/30_encoding.md R87 and R100 and
spec/95_test_vectors.md, named at each test; `witness_` theorems show, for each statement with hypotheses, states
and operands that meet them. -/

namespace Sys2Proof.Tests

open Sys2Proof Sys2Proof.Machine

/-! ### States to test on -/

/-- A block with `n` slots and bytes for the OPEN parameters. -/
def block (n : Nat) : Params where
  n := n
  dataCmdFixed := 0x44
  displayOnByte := 0x8F
  displayOffByte := 0x80
  nprod := 2
  tTick := 5
  cmdPortAddr := 0

/-- Right after reset. -/
def idle (n : Nat) : State := State.boot (block n) []

/-- One byte to send. -/
def byteFrame (x : Byte) : Frame := ⟨1, #v[x, 0, 0, 0, 0, 0, 0]⟩

/-- Three slots, the frames `[1]`, `[2]` queued: full. -/
def full : State :=
  { idle 3 with q := [(0, byteFrame 1), (1, byteFrame 2)], head := 2, timerOn := true }

/-- Three slots, the frame `[1]` queued: one slot free, before its first tick. -/
def one : State := { idle 3 with q := [(0, byteFrame 1)], head := 1, timerOn := true }

/-- Three slots, a seven-byte frame queued across the wrap. -/
def seven : State :=
  { idle 3 with q := [(2, ⟨7, #v[1, 2, 3, 4, 5, 6, 7]⟩)], head := 0, tail := 2, timerOn := true }

/-- In the only byte of the frame `[0x40]`, queue empty, at a micro-state with these lines. -/
def sending (phase : BitVec 3) (sub : BitVec 4) (clk dio : Bool) : State :=
  { idle 3 with
    phase := phase, sub := sub, clkOut := clk, dioOut := dio, timerOn := true
    curLen := 1, curB := #v[0x40, 0, 0, 0, 0, 0, 0], head := 1, tail := 1 }

/-- The first byte of a two-byte frame is acknowledged next. -/
def acking : State :=
  { sending READACK 1 true true with curLen := 2, curB := #v[0xC0, 0x3F, 0, 0, 0, 0, 0], rem := 1 }

/-- All frames sent, the last tick still to come. -/
def finishing : State := sending DONE 0 true true

/-- A command word about to be taken. -/
def givenWord (s : State) (w : CommandWord) : State := { s with arrivals := [Instant.ofCommand w] }

/-- A tick about to be taken, the data line at `a`. -/
def givenTick (s : State) (a : Bool) : State := { s with arrivals := [Instant.ofTick a] }

/-- RESET about to be taken. -/
def givenReset (s : State) : State := { s with arrivals := [{ reset := true, commands := [], tick := none }] }

/-- The answer is a next state, and this holds of it. -/
def leads (a : Answer) (p : State → Bool) : Bool :=
  match a with
  | .next t => p t
  | .fault _ => false
  | .refused _ => false

/-- The answer is this fault. -/
def faults (a : Answer) (r : Fault) : Bool :=
  match a with
  | .next _ => false
  | .fault r' => r' = r
  | .refused _ => false

/-- The parts of the invariant, each one decided. -/
def meetsInv (s : State) : Bool :=
  decide (QueueOk s) && decide (LegalPosition s.phase s.sub) && decide (LineLevels s) && decide s.q.wf
    && s.q.all (fun e => decide (e.1 < s.params.n) && decide (e.2.len ≠ 0)
      && decide (LanesZeroFrom e.2.len.toNat e.2.b))
    && decide (s.timerOn = false → s.phase = IDLE ∧ isEmpty s = true)
    && decide (s.timerOn = true → s.phase ≠ IDLE ∨ isEmpty s = false)
    && decide (Sending s → 1 ≤ s.curLen.toNat ∧ s.bptr.toNat + s.rem.toNat = s.curLen.toNat - 1)
    && (List.range (count s)).all fun j => (slotAt s j).any fun f => decide (1 ≤ f.len.toNat)

theorem blockInv_of (s : State) (h : meetsInv s = true) : BlockInv s := by
  simp only [meetsInv, Bool.and_eq_true, decide_eq_true_eq, List.all_eq_true, List.mem_range] at h
  obtain ⟨⟨⟨⟨⟨⟨⟨⟨⟨hp, hh, ht⟩, hpos⟩, hl⟩, hw⟩, hs⟩, hoff⟩, hon⟩, hcf⟩, hq⟩ := h
  refine ⟨hp, hpos, hh, ht, hoff, hon, hcf, fun hr _ => ?_, fun j hj => ?_, hl, hw, fun e he => ?_⟩
  · have := hl.1 (.inr (.inl hr)); exact ⟨this.2, this.1⟩
  · have := hq j hj
    cases hx : slotAt s j with
    | none => rw [hx] at this; simp at this
    | some f => rw [hx] at this; exact ⟨f, rfl, by simpa using this⟩
  · have := hs e he; exact ⟨this.1.1, this.1.2, this.2⟩

/-! ### Well-formedness (R83, R86): one ill-formed term for each check -/

theorem test_wellFormed_refuses_enq_of_no_byte :
    (Instr.enq 0 #v[0, 0, 0, 0, 0, 0, 0]).wellFormed = false := by decide

theorem test_wellFormed_refuses_enq_with_a_byte_above_len :
    (Instr.enq 1 #v[0x40, 0x0A, 0, 0, 0, 0, 0]).wellFormed = false := by decide

theorem test_wellFormed_refuses_wrdisp_of_seven_segments :
    (Instr.wrdisp 7 0xC0 #v[1, 2, 3, 4, 5, 6]).wellFormed = false := by decide

theorem test_wellFormed_refuses_wrdisp_with_a_segment_above_c :
    (Instr.wrdisp 0 0xC0 #v[1, 0, 0, 0, 0, 0]).wellFormed = false := by decide

theorem test_wellFormed_admits_the_longest_forms :
    (Instr.enq 7 #v[1, 2, 3, 4, 5, 6, 7]).wellFormed = true ∧
    (Instr.wrdisp 6 0 #v[1, 2, 3, 4, 5, 6]).wellFormed = true ∧
    (Instr.wrdisp 0 0xC0 #v[0, 0, 0, 0, 0, 0]).wellFormed = true := by decide

/-! ### Decoding -/

/-- Section 2.1 of spec/95_test_vectors.md; the words stand in R87. -/
theorem test_decode_commands :
    decodeCommand 0x0706050403020171 = .ok (.enq 7 #v[1, 2, 3, 4, 5, 6, 7]) ∧
    decodeCommand 0x0605040302010062 = .ok (.wrdisp 6 0x00 #v[1, 2, 3, 4, 5, 6]) ∧
    decodeCommand 0x0000000000060103 = .ok (.wrseg 0x01 0x06) ∧
    decodeCommand 0x0000000000000704 = .ok (.bright 7) ∧
    decodeCommand 0x0000000000000005 = .ok .don ∧
    decodeCommand 0x0000000000000006 = .ok .doff ∧
    decodeCommand 0x0000000000000007 = .ok .ackrc ∧
    decodeCommand 0x0000000000000008 = .ok .stat ∧
    decodeCommand 0x0000000000004011 = .ok (.wrbyte 0x40) := by decide

/-- A word of R80 written out field by field: `B6`..`B0`, `Z`, `LEN`, `OP`. -/
theorem test_decode_enq_bit_by_bit :
    decodeCommand (0b00000000_00000000_00000000_00000000_00000110_00111111_11000000_0_011_0001#64) =
      .ok (.enq 3 #v[0xC0, 0x3F, 0x06, 0, 0, 0, 0]) := by decide

/-- R84 and section 2.4: reserved opcodes, `Z` = 1 and non-zero fixed fields, by name. -/
theorem test_decode_rejects_commands_by_name :
    decodeCommand 0x0000000000000000 = .error .reservedOpcode ∧
    decodeCommand 0x0000000000000009 = .error .reservedOpcode ∧
    decodeCommand 0xFFFFFFFFFFFFFFFF = .error .reservedOpcode ∧
    decodeCommand 0x0000000000004091 = .error .reservedField ∧
    decodeCommand 0x000000000006C113 = .error .reservedField ∧
    decodeCommand 0x000000000106C103 = .error .reservedField ∧
    decodeCommand 0x0000000000000804 = .error .reservedField ∧
    decodeCommand 0x0000000000000514 = .error .reservedField ∧
    decodeCommand 0x0000000000000105 = .error .reservedField ∧
    decodeCommand 0x0000000000000087 = .error .reservedField ∧
    decodeCommand 0x0000000000000018 = .error .reservedField := by decide

/-- R100, the words written from `PHASE` and `SUB`, and section 2.1: (WRITEBIT,5), (READACK,1). -/
theorem test_decode_micro_states :
    decodeMicro 0b000_0000 = .ok .uIdle ∧ decodeMicro 0b001_0000 = .ok .uStart0 ∧
    decodeMicro 0b001_0001 = .ok .uStart1 ∧ decodeMicro 0b001_0010 = .ok .uStart2 ∧
    decodeMicro 0b010_0101 = .ok (.uWbit 5) ∧ decodeMicro 0b010_1000 = .ok .uWprep ∧
    decodeMicro 0b010_1001 = .ok .uWclkh ∧ decodeMicro 0b011_0000 = .ok .uAcks ∧
    decodeMicro 0b011_0001 = .ok .uAcke ∧ decodeMicro 0b100_0000 = .ok .uStop0 ∧
    decodeMicro 0b100_0001 = .ok .uStop1 ∧ decodeMicro 0b100_0010 = .ok .uStop2 ∧
    decodeMicro 0b100_0011 = .ok .uStop3 ∧ decodeMicro 0b101_0000 = .ok .uDone := by decide

/-- Section 2.1: (DONE,1) and (6,0) are no micro-states; nor is (WRITEBIT,10). -/
theorem test_decode_rejects_micro_states_by_name :
    decodeMicro 0b1010001 = .error .reservedMicroState ∧
    decodeMicro 0b1100000 = .error .reservedMicroState ∧
    decodeMicro 0b0101010 = .error .reservedMicroState := by decide

/-- Words of the opcode table, and the width of each code space. -/
theorem test_decodeTableWord :
    decodeTableWord 64 0x0504 = some (.bright 5) ∧ decodeTableWord 8 0x25 = some (.uWbit 5) ∧
    decodeTableWord 8 0x80 = none ∧ decodeTableWord 64 0 = none := by decide

/-- The very next step after `withFetchWord` runs the word given, from reset. -/
theorem test_withFetchWord_runs_next :
    (leads (step (State.reset.withFetchWord 64 0x07)) fun t => t.responses == [0x00000004]) = true ∧
    (leads (step (State.reset.withFetchWord 8 0x11)) fun t => t.trace == [.dio false] && t.sub == 2) = true := by
  decide

/-! ### The commands (section 2.4, from reset, by one step) -/

theorem test_enq_seven_bytes :
    (leads (step (givenWord (idle 50) 0x0706050403020171)) fun t =>
      t.responses == [0] && contents t == [⟨7, #v[1, 2, 3, 4, 5, 6, 7]⟩] && t.timerOn
        && t.trace == [.tmrStart]) = true := by decide

/-- `ERR_ILLEGAL` before `ERR_LEN` (R84). -/
theorem test_enq_length_zero :
    (leads (step (givenWord (idle 50) 0x0000000000000001)) fun t =>
      t.responses == [2] && t.head == 0 && !t.timerOn) = true ∧
    (leads (step (givenWord (idle 50) 0x0000000000004001)) fun t => t.responses == [3]) = true := by decide

theorem test_wrdisp_six_segments :
    (leads (step (givenWord (idle 50) 0x0605040302010062)) fun t =>
      t.responses == [0] && contents t == [byteFrame 0x40, ⟨7, #v[0xC0, 1, 2, 3, 4, 5, 6]⟩] && t.head == 2)
      = true := by decide

/-- `ERR_LEN` before `ERR_FULL` (section 2.4, full queue). -/
theorem test_wrdisp_length_seven_when_full :
    (leads (step (givenWord full 0x0706050403020172)) fun t => t.responses == [2] && t.head == 2) = true := by
  decide

theorem test_wrseg :
    (leads (step (givenWord (idle 50) 0x0000000000060103)) fun t =>
      t.responses == [0] && contents t == [byteFrame 0x44, ⟨2, #v[0xC1, 0x06, 0, 0, 0, 0, 0]⟩]) = true := by
  decide

/-- E7; and with one free slot neither frame is written (R181). -/
theorem test_bright :
    (leads (step (givenWord (idle 50) 0x0000000000000504)) fun t =>
      t.responses == [0] && contents t == [byteFrame 0x40, byteFrame 0x8D] && t.head == 2
        && status t == 0x00020060) = true ∧
    (leads (step (givenWord one 0x0000000000000504)) fun t =>
      t.responses == [1] && t.head == 1 && contents t == [byteFrame 1]) = true := by decide

theorem test_don :
    (leads (step (givenWord (idle 50) 5)) fun t => contents t == [byteFrame 0x40, byteFrame 0x8F]) = true := by
  decide

theorem test_doff :
    (leads (step (givenWord (idle 50) 6)) fun t => contents t == [byteFrame 0x40, byteFrame 0x80]) = true := by
  decide

/-- `ACK_MISS` = 3: `RES` = 0 and the count cleared. -/
theorem test_ackrc_after_misses :
    (leads (step (givenWord { idle 50 with ackMiss := 3 } 7)) fun t =>
      t.responses == [0] && t.ackMiss == 0) = true := by decide

/-- A command with `Z` = 1 clears nothing. -/
theorem test_ackrc_with_z_set :
    (leads (step (givenWord { idle 50 with ackMiss := 3 } 0x87)) fun t =>
      t.responses == [3] && t.ackMiss == 3) = true := by decide

/-- The reset state, and the full queue of section 2.4. -/
theorem test_stat :
    (leads (step (givenWord (idle 50) 8)) fun t => t.responses == [0x00000048]) = true ∧
    (leads (step (givenWord full 8)) fun t => t.responses == [0x00020070]) = true := by decide

/-- E4: `WRBYTE 0x40` starts the timer. -/
theorem test_wrbyte :
    (leads (step (givenWord (idle 50) 0x4011)) fun t =>
      t.responses == [0] && contents t == [byteFrame 0x40] && t.trace == [.tmrStart] && t.phase == IDLE) = true := by
  decide

/-- Producer 0 issues A and then C, producer 1 issues B, at the instants {A, B} and {C}. -/
def contended : List Instant :=
  [{ reset := false, commands := [⟨0, 0xAA11⟩, ⟨1, 0xBB11⟩], tick := some true },
    { reset := false, commands := [⟨0, 0xCC11⟩], tick := none }]

/-- E9 and R243: either of the two may go first; the other one waits. -/
theorem test_one_of_the_waiting_producers_is_served :
    ((nextEvent (block 3) 0 contended).map (·.1) == some (.command ⟨0, 0xAA11⟩)) = true ∧
    (nextEvent (block 3) 1 contended == some (.command ⟨1, 0xBB11⟩,
      [{ reset := false, commands := [], tick := some true },
        { reset := false, commands := [⟨0, 0xAA11⟩, ⟨0, 0xCC11⟩], tick := none }])) = true := by decide

/-- R243 and R267: whatever the choice, C does not come before A; and a third producer of two does not exist. -/
theorem test_own_order_is_kept :
    ready [⟨0, 0xAA11⟩, ⟨0, 0xCC11⟩] = [⟨0, 0xAA11⟩] ∧
    ready [⟨1, 0xBB11⟩, ⟨0, 0xAA11⟩, ⟨1, 0x5⟩, ⟨0, 0xCC11⟩] = [⟨1, 0xBB11⟩, ⟨0, 0xAA11⟩] ∧
    (nextEvent (block 3) 0 [{ reset := false, commands := [⟨2, 0x5⟩], tick := some true }] ==
      some (.tick true, [])) = true := by decide

/-- R242: the response goes to the producer that issued the command. -/
theorem test_response_goes_to_the_issuer :
    (leads (step { idle 3 with arrivals := [{ reset := false, commands := [⟨1, 0x8⟩], tick := none }] }) fun t =>
      t.responses == [0x00000048] && t.issuers == [1]) = true := by decide

/-! ### The micro-steps (section 2.3, each one accepted tick) -/

theorem test_uIdle :
    (leads (step (givenTick seven false)) fun t =>
      t.phase == START && t.sub == 0 && t.curLen == 7 && t.curB == #v[1, 2, 3, 4, 5, 6, 7] && t.bptr == 0
        && t.rem == 6 && t.tail == 0 && t.trace == []) = true := by decide

/-- R133: an empty queue with the timer on, no `TmrStop`. -/
theorem test_uIdle_empty :
    (leads (step (givenTick { idle 3 with timerOn := true } false)) fun t =>
      t.phase == IDLE && t.timerOn && t.trace == []) = true := by decide

theorem test_uStart0 :
    (leads (step (givenTick (sending START 0 true true) false)) fun t =>
      t.sub == 1 && t.trace == [.dio true, .clk true]) = true := by decide

theorem test_uStart1 :
    (leads (step (givenTick (sending START 1 true true) false)) fun t =>
      t.sub == 2 && t.trace == [.dio false] && t.clkOut && !t.dioOut) = true := by decide

theorem test_uStart2 :
    (leads (step (givenTick (sending START 2 true false) false)) fun t =>
      t.phase == WRITEBIT && t.sub == 0 && t.trace == [.clk false] && !t.clkOut) = true := by decide

/-- `CUR_B[0]` = 0x40 at bit 6. -/
theorem test_uWbit :
    (leads (step (givenTick (sending WRITEBIT 6 true false) false)) fun t =>
      t.sub == 7 && t.trace == [.clk false, .dio true, .clk true] && t.clkOut && t.dioOut) = true := by decide

/-- `CUR_B[1]` = 0x3F at bit 7, `BPTR` = 1. -/
theorem test_uWbit_second_byte :
    (leads (step (givenTick { acking with phase := WRITEBIT, sub := 7, bptr := 1, rem := 0 } false)) fun t =>
      t.phase == WRITEBIT && t.sub == 8 && !t.dioOut) = true := by decide

theorem test_uWprep :
    (leads (step (givenTick (sending WRITEBIT 8 true true) false)) fun t =>
      t.sub == 9 && t.trace == [.clk false, .dio true] && !t.clkOut && t.dioOut) = true := by decide

theorem test_uWclkh :
    (leads (step (givenTick (sending WRITEBIT 9 false true) false)) fun t =>
      t.phase == READACK && t.sub == 0 && t.trace == [.clk true] && t.clkOut) = true := by decide

/-- `ACK_MISS` 254 and a sampled 1. -/
theorem test_uAcks_miss :
    (leads (step (givenTick { sending READACK 0 true true with ackMiss := 254 } true)) fun t =>
      t.sub == 1 && t.trace == [.smp true] && t.ackMiss == 255) = true := by decide

/-- `ACK_MISS` 255 saturates; a sampled 0 counts nothing. -/
theorem test_uAcks_saturates :
    (leads (step (givenTick { sending READACK 0 true true with ackMiss := 255 } true)) fun t =>
      t.ackMiss == 255) = true ∧
    (leads (step (givenTick (sending READACK 0 true true) false)) fun t =>
      t.ackMiss == 0 && t.trace == [.smp false]) = true := by decide

theorem test_uAcke_next_byte :
    (leads (step (givenTick acking false)) fun t =>
      t.phase == WRITEBIT && t.sub == 0 && t.rem == 0 && t.bptr == 1 && !t.clkOut) = true := by decide

theorem test_uAcke_last_byte :
    (leads (step (givenTick (sending READACK 1 true true) false)) fun t =>
      t.phase == STOP && t.sub == 0 && t.trace == [.clk false]) = true := by decide

theorem test_uStop0 :
    (leads (step (givenTick (sending STOP 0 false true) false)) fun t =>
      t.sub == 1 && t.trace == [.clk false]) = true := by decide

theorem test_uStop1 :
    (leads (step (givenTick (sending STOP 1 false true) false)) fun t =>
      t.sub == 2 && t.trace == [.dio false] && !t.dioOut) = true := by decide

theorem test_uStop2 :
    (leads (step (givenTick (sending STOP 2 false false) false)) fun t =>
      t.sub == 3 && t.trace == [.clk true] && t.clkOut) = true := by decide

theorem test_uStop3 :
    (leads (step (givenTick (sending STOP 3 true false) false)) fun t =>
      t.phase == DONE && t.sub == 0 && t.trace == [.dio true] && t.dioOut) = true := by decide

theorem test_uDone_empty :
    (leads (step (givenTick finishing false)) fun t =>
      t.phase == IDLE && !t.timerOn && t.trace == [.tmrStop]) = true := by decide

theorem test_uDone_queued :
    (leads (step (givenTick { finishing with q := [(1, byteFrame 6)], head := 2 } false)) fun t =>
      t.phase == IDLE && t.timerOn && t.trace == []) = true := by decide

/-- R147: (DONE,1) faults. -/
theorem test_unlisted_micro_state_faults :
    faults (step (givenTick { finishing with sub := 1 } false)) .unreachableMicroState = true := by decide

/-! ### Gate, wake and reset (sections 2.5 and 2.6) -/

theorem test_gated_tick :
    (leads (step (givenTick (idle 3) true)) fun t =>
      t.phase == IDLE && t.trace == [] && t.ackMiss == 0 && !t.timerOn) = true := by decide

/-- No second wake in (WRITEBIT,3). -/
theorem test_no_second_wake :
    (leads (step (givenWord (sending WRITEBIT 3 true false) 0x0611)) fun t =>
      t.responses == [0] && t.trace == []) = true := by decide

theorem test_reset_mid_frame :
    (leads (step (givenReset { full with phase := START, sub := 2, dioOut := false, ackMiss := 7 })) fun t =>
      t.phase == IDLE && t.sub == 0 && t.head == 0 && t.tail == 0 && t.ackMiss == 0 && !t.timerOn && t.clkOut
        && t.dioOut && t.trace == [] && status t == 0x00000048) = true := by decide

/-! ### The queue (section 2.2) -/

theorem test_queue_indices :
    inc 50 48 = 49 ∧ inc 50 49 = 0 ∧
    count { idle 50 with head := 0, tail := 49 } = 1 ∧ free { idle 50 with head := 0, tail := 49 } = 48 ∧
    free { idle 50 with head := 2, tail := 40 } = 37 ∧ isFull { idle 50 with head := 49 } = true := by decide

/-- R6, row `IDXW`: ceil(log2 N), at the ends of the range of N and around a power of two. -/
theorem test_index_width :
    idxWidth 3 = 2 ∧ idxWidth 4 = 2 ∧ idxWidth 5 = 3 ∧ idxWidth 50 = 6 ∧ idxWidth 256 = 8 ∧
    ((idle 50).setHead 64).head = 0 ∧ ((idle 50).setTail 63).tail = 63 := by decide

theorem test_qEnq2_needs_two_slots :
    (qEnq2 (byteFrame 1) (byteFrame 2) { idle 3 with head := 1 }).toOption.map (·.1) = some false ∧
    (qEnq2 (byteFrame 1) (byteFrame 2) (idle 3)).toOption.map (fun x => (x.1, x.2.head, x.2.q)) =
      some (true, 2, [(0, byteFrame 1), (1, byteFrame 2)]) := by decide

/-! ### Witnesses: states that meet the invariant -/

theorem witness_blockInv_idle : BlockInv (idle 3) ∧ BlockInv (idle 256) :=
  ⟨blockInv_of _ (by decide), blockInv_of _ (by decide)⟩

theorem witness_blockInv_queued : BlockInv one ∧ BlockInv full ∧ BlockInv seven :=
  ⟨blockInv_of _ (by decide), blockInv_of _ (by decide), blockInv_of _ (by decide)⟩

theorem witness_blockInv_start :
    BlockInv (sending START 0 true true) ∧ BlockInv (sending START 1 true true) ∧
    BlockInv (sending START 2 true false) :=
  ⟨blockInv_of _ (by decide), blockInv_of _ (by decide), blockInv_of _ (by decide)⟩

theorem witness_blockInv_writebit :
    BlockInv (sending WRITEBIT 0 false false) ∧ BlockInv (sending WRITEBIT 8 true false) ∧
    BlockInv (sending WRITEBIT 9 false true) :=
  ⟨blockInv_of _ (by decide), blockInv_of _ (by decide), blockInv_of _ (by decide)⟩

theorem witness_blockInv_readack :
    BlockInv (sending READACK 0 true true) ∧ BlockInv acking :=
  ⟨blockInv_of _ (by decide), blockInv_of _ (by decide)⟩

theorem witness_blockInv_stop :
    BlockInv (sending STOP 0 false true) ∧ BlockInv (sending STOP 3 true false) ∧ BlockInv finishing :=
  ⟨blockInv_of _ (by decide), blockInv_of _ (by decide), blockInv_of _ (by decide)⟩

/-! ### Witnesses: the encodings -/

theorem witness_EncodedInstructionDecodesBack :
    (Instr.enq 1 #v[0x40, 0, 0, 0, 0, 0, 0]).WellFormed ∧ (Instr.enq 7 #v[1, 2, 3, 4, 5, 6, 7]).WellFormed ∧
    (Instr.wrdisp 6 0xFF #v[1, 2, 3, 4, 5, 6]).WellFormed ∧ (Instr.uWbit 7).WellFormed := by decide

theorem witness_DecodedWordEncodesBack :
    decodeCommand 0x0000000000000001 = .ok (.enq 0 #v[0, 0, 0, 0, 0, 0, 0]) ∧
    decodeCommand 0x0000000000000704 = .ok (.bright 7) ∧ decodeMicro 0x27 = .ok (.uWbit 7) := by decide

theorem witness_MicroStateTable :
    (∀ u ∈ [0b1010001#7, 0b1100000#7, 0b0000001#7, 0b0101010#7],
      ¬ LegalPosition (u.extractLsb' 4 3) (u.extractLsb' 0 4)) := by
  simp only [List.forall_mem_cons]
  exact ⟨by decide, by decide, by decide, by decide, by simp⟩

theorem witness_IllegalWordsAreRejected :
    (reservedOp 0x9 = true ∧ reservedOp 0xF = true) ∧
    ([0x4091#64, 0xA4011#64, 0x4001#64, 0x1C002#64, 0x106C103#64, 0x804#64, 0x105#64, 0x106#64, 0x87#64,
      0x18#64].all fun w => reservedBitSet w) = true ∧
    (QueueOk (idle 3) ∧ ([0x4011#64, 0x1#64, 0x0706050403020172#64, 0x8#64].all fun w =>
      !reservedOp w && !reservedBitSet w) = true) :=
  ⟨by decide, by decide, by decide, by decide⟩

/-- The response code's clause has words on both sides. -/
theorem witness_FirstFailingCheckGivesTheCode :
    (QueueOk (idle 3) ∧ QueueOk full) ∧ expectedCode 0x9 full = .errIllegal ∧ expectedCode 0x4001 full = .errIllegal ∧
    expectedCode 0x0706050403020172 full = .errLen ∧ expectedCode 0x0311 full = .errFull ∧
    expectedCode 0x8 full = .ok ∧ expectedCode 0x504 (idle 3) = .ok := by decide

theorem witness_FailedCommandChangesNothing :
    (leads (commandTransaction 0x0311 full) fun t => t.responses == full.responses ++ [1]) = true ∧
    codeOf 1 ≠ 0 ∧ QueueOk one ∧ free one = 1 ∧ framesAsked 0x504 = 2 ∧ reservedBitSet 0x504 = false ∧
    illegalLength 0x504 = false := by decide

/-! ### Witnesses: the commands -/

theorem witness_EnqEnqueuesOneFrame :
    QueueOk one ∧ free one = 1 ∧ QueueOk full ∧ free full = 0 ∧
    LanesZeroFrom (1#3).toNat #v[0x40#8, 0, 0, 0, 0, 0, 0] ∧
    LanesZeroFrom (7#3).toNat #v[1#8, 2, 3, 4, 5, 6, 7] ∧
    LanesZeroFrom (0#3).toNat #v[0#8, 0, 0, 0, 0, 0, 0] ∧
    ¬ LanesZeroFrom (0#3).toNat #v[0x40#8, 0, 0, 0, 0, 0, 0] ∧
    ¬ LanesZeroFrom (6#3).toNat #v[1#8, 2, 3, 4, 5, 6, 7] ∧
    (0x4091#64).extractLsb' 0 4 = 1 ∧ (0x4091#64).getLsbD 7 = true := by decide

theorem witness_WrdispEnqueuesCommandAndDisplayFrame :
    QueueOk (idle 3) ∧ free (idle 3) = 2 ∧ QueueOk one ∧ free one = 1 ∧
    LanesZeroFrom (0#3).toNat #v[0#8, 0, 0, 0, 0, 0] ∧ LanesZeroFrom (6#3).toNat #v[1#8, 2, 3, 4, 5, 6] ∧
    ¬ LanesZeroFrom (0#3).toNat #v[1#8, 0, 0, 0, 0, 0] ∧ ¬ LanesZeroFrom (5#3).toNat #v[1#8, 2, 3, 4, 5, 6] ∧
    (0xC082#64).extractLsb' 0 4 = 2 ∧ (0xC082#64).getLsbD 7 = true := by decide

theorem witness_WrsegEnqueuesFixedAddressFrames :
    QueueOk (idle 3) ∧ free (idle 3) = 2 ∧ QueueOk one ∧ free one = 1 ∧
    (0x106C103#64).extractLsb' 0 4 = 3 ∧ 0x106C103#64 &&& 0xFFFFFFFFFF0000F0 ≠ 0 := by decide

theorem witness_BrightEnqueuesBrightnessFrames :
    QueueOk (idle 3) ∧ free (idle 3) = 2 ∧ QueueOk one ∧ free one = 1 ∧
    (0x804#64).extractLsb' 0 4 = 4 ∧ 0x804#64 &&& 0xFFFFFFFFFFFFF8F0 ≠ 0 := by decide

theorem witness_DonEnqueuesDisplayOnFrames :
    QueueOk (idle 3) ∧ free (idle 3) = 2 ∧ QueueOk full ∧ free full = 0 ∧
    (0x105#64).extractLsb' 0 4 = 5 ∧ 0x105#64 ≠ 5 := by decide

theorem witness_DoffEnqueuesDisplayOffFrames :
    QueueOk (idle 3) ∧ free (idle 3) = 2 ∧ QueueOk full ∧ free full = 0 ∧
    (0x106#64).extractLsb' 0 4 = 6 ∧ 0x106#64 ≠ 6 := by decide

theorem witness_WrbyteIsEnqOfOneByte : QueueOk one ∧ free one = 1 := by decide

theorem witness_AckrcReadsAndClears :
    (leads (exec .ackrc { idle 3 with ackMiss := 3 }) fun t => leads (exec .ackrc t) fun u =>
      u.responses == [0, 4]) = true ∧
    (0x87#64).extractLsb' 0 4 = 7 ∧ 0x87#64 ≠ 7 := by decide

theorem witness_StatAnswersStatus :
    (leads (exec .stat full) fun t => leads (exec .stat t) fun u =>
      u.responses == [0x00020070, 0x00020070]) = true ∧
    Params.Legal (block 3) ∧ Params.Legal (block 256) ∧
    (0x18#64).extractLsb' 0 4 = 8 ∧ 0x18#64 ≠ 8 := by decide

/-- A command that writes slots and one that does not. -/
theorem witness_CommandsLeaveTheSequencerAlone :
    (leads (commandTransaction 0x504 (idle 3)) fun t => t.responses.length == 1) = true ∧
    framesAsked 0x504 = 2 ∧ framesAsked 0x4011 = 1 ∧ framesAsked 0x8 = 0 ∧ (0x504#64).extractLsb' 0 4 ≠ 7 ∧
    2 ≠ (idle 3).head ∧ 2 ≠ inc 3 (idle 3).head ∧
    (leads (commandTransaction 0x8 (idle 3)) fun t => t.responses.length == 1) = true := by decide

theorem witness_StatusFields : QueueOk full ∧ QueueOk seven := by decide

theorem witness_AcceptedCommandAppendsItsFrames :
    QueueOk (idle 3) ∧
    (∀ w ∈ [0x4011#64, 0xC002#64, 0x60103#64, 0x704#64, 0x8#64],
      expectedCode w (idle 3) = .ok ∧ (leads (commandTransaction w (idle 3)) fun _ => true) = true) := by
  simp only [List.forall_mem_cons]
  exact ⟨by decide, by decide, by decide, by decide, by decide, by decide, by simp⟩

/-! ### Witnesses: the micro-steps -/

theorem witness_IdleDequeuesOrStays :
    (isEmpty one = false ∧ one.tail < one.params.n ∧
      byteFrame 1 = (one.q.read one.tail).getD (Frame.unwritten one.resets one.tail)) ∧
    (isEmpty seven = false ∧ seven.tail < seven.params.n ∧
      ⟨7, #v[1, 2, 3, 4, 5, 6, 7]⟩ = (seven.q.read seven.tail).getD (Frame.unwritten seven.resets seven.tail)) ∧
    isEmpty (idle 3) = true ∧ (BlockInv one ∧ one.phase = IDLE ∧ one.timerOn = true) :=
  ⟨by decide, by decide, by decide, witness_blockInv_queued.1, by decide⟩

theorem witness_StartDrivesTheStartCondition :
    BlockInv (sending START 1 true true) ∧ (sending START 1 true true).phase = START ∧
    (sending START 1 true true).sub = 1 :=
  ⟨witness_blockInv_start.2.1, by decide⟩

/-- `BPTR` 0 and the largest legal `BPTR`; and the two clauses under the invariant. -/
theorem witness_WbitShiftsOneBitOut :
    ((idle 3).bptr.toNat < 7 ∧ ({ idle 3 with bptr := 6 } : State).bptr.toNat < 7) ∧
    (BlockInv (sending WRITEBIT 8 true false) ∧ Sending (sending WRITEBIT 8 true false)) ∧
    (BlockInv (sending WRITEBIT 0 false false) ∧ (sending WRITEBIT 0 false false).phase = WRITEBIT ∧
      (sending WRITEBIT 0 false false).sub = 0) :=
  ⟨by decide, ⟨witness_blockInv_writebit.2.1, by decide⟩, witness_blockInv_writebit.1, by decide⟩

theorem witness_AcksCountsAMiss :
    BlockInv (sending READACK 0 true true) ∧ (sending READACK 0 true true).phase = READACK ∧
    (sending READACK 0 true true).sub = 0 :=
  ⟨witness_blockInv_readack.1, by decide⟩

theorem witness_AckeGoesOnOrStops : acking.rem ≠ 0 ∧ (sending READACK 1 true true).rem = 0 := by decide

theorem witness_StopDrivesTheStopCondition :
    (BlockInv (sending STOP 0 false true) ∧ (sending STOP 0 false true).phase = STOP ∧
      (sending STOP 0 false true).sub = 0) ∧
    (BlockInv (sending STOP 3 true false) ∧ (sending STOP 3 true false).phase = STOP ∧
      (sending STOP 3 true false).sub = 3) :=
  ⟨⟨witness_blockInv_stop.1, by decide⟩, witness_blockInv_stop.2.1, by decide⟩

theorem witness_DoneStopsTheTimerWhenEmpty : finishing.head = finishing.tail ∧ one.head ≠ one.tail := by decide

/-! ### Witnesses: reachable states -/

/-- Right after reset; and after a first command, with a frame queued. -/
theorem witness_reachable :
    Reachable (idle 3) ∧
    ∃ s, Reachable s ∧ isEmpty s = false ∧ s.timerOn = true ∧ count s = 1 := by
  refine ⟨.boot _ _ (by decide), ?_⟩
  obtain ⟨t, ht, h⟩ : ∃ t, step (State.boot (block 3) [Instant.ofCommand 0x4011]) = .next t ∧
      isEmpty t = false ∧ t.timerOn = true ∧ count t = 1 := ⟨_, rfl, by decide⟩
  exact ⟨t, .after _ t (.boot _ _ (by decide)) ht, h⟩

theorem witness_UnlistedMicroStateFaults :
    (∀ s ∈ [{ finishing with sub := 1 }, { finishing with phase := 6 }, { one with sub := 15 }],
      s.timerOn = true ∧ ¬ LegalPosition s.phase s.sub) ∧ Reachable (idle 3) :=
  ⟨by decide, witness_reachable.1⟩

theorem witness_StatusEmptyAndOffMeansDone :
    Reachable (idle 3) ∧ (status (idle 3)).getLsbD 3 = true ∧ (status (idle 3)).getLsbD 5 = false :=
  ⟨witness_reachable.1, by decide⟩

theorem witness_MissingSlotOrByteFaults :
    ({ idle 3 with bptr := 7 } : State).bptr = 7 ∧
    (isEmpty { idle 3 with tail := 3 } = false ∧ 3 ≤ ({ idle 3 with tail := 3 } : State).tail) ∧
    (isFull { idle 3 with head := 3 } = false ∧ 2 ≤ free { idle 3 with head := 3 } ∧
      3 ≤ ({ idle 3 with head := 3 } : State).head) ∧
    (BlockInv (sending WRITEBIT 8 true false) ∧ Sending (sending WRITEBIT 8 true false)) :=
  ⟨by decide, by decide, by decide, witness_blockInv_writebit.2.1, by decide⟩

theorem witness_MicroStepsLeaveTheQueueSideAlone :
    ∀ i ∈ [Instr.uIdle, .uStart0, .uStart1, .uStart2, .uWbit 0, .uWbit 7, .uWprep, .uWclkh, .uAcks, .uAcke, .uStop0,
      .uStop1, .uStop2, .uStop3, .uDone],
      isMicroStep i = true ∧ (leads (exec i one) fun _ => true) = true := by decide

theorem witness_AcknowledgmentNeverSteers :
    isMicroStep .uAcks = true ∧ (leads (exec .uAcks (sending READACK 0 true true)) fun _ => true) = true := by
  decide

/-! ### Witnesses: the step -/

theorem witness_StepRunsTheDecodedInstruction :
    (givenWord (idle 3) 0x4011).arrivals = [Instant.ofCommand 0x4011] ∧
    ((Instant.ofCommand 0x4011).reset = false ∧ (Instant.ofCommand 0x4011).issued (block 3) = [⟨0, 0x4011⟩] ∧
      decodeCommand 0x4011 = .ok (.wrbyte 0x40)) ∧
    ((Instant.ofCommand 0x9).issued (block 3) = [⟨0, 0x9⟩] ∧ decodeCommand 0x9 = .error .reservedOpcode) ∧
    (givenTick one true).arrivals = [Instant.ofTick true] ∧
    ((Instant.ofTick true).reset = false ∧ (Instant.ofTick true).issued (block 3) = [] ∧
      (Instant.ofTick true).tick = some true ∧ (givenTick one true).timerOn = true ∧
      decodeMicro (microState (givenTick one true)) = .ok .uIdle) ∧
    (givenReset one).arrivals = [{ reset := true, commands := [], tick := none }] :=
  ⟨rfl, by decide, by decide, rfl, by decide, rfl⟩

theorem witness_ClosedGateDropsTicks :
    (idle 3).timerOn = false ∧
    (one.timerOn = true ∧ decodeMicro (microState one) = .ok .uIdle) ∧
    (({ idle 3 with arrivals := ticks 3 fun _ => true } : State).timerOn = false ∧
      ({ idle 3 with arrivals := ticks 3 fun _ => true } : State).arrivals = ticks 3 fun _ => true) := by decide

/-- All three events at one instant, and what is left after the first and the second. -/
theorem witness_SimultaneousEventsAreOrdered :
    ({ reset := true, commands := [⟨0, 1⟩, ⟨1, 2⟩], tick := some true } : Instant).reset = true ∧
    (let i : Instant := { reset := false, commands := [⟨0, 1⟩, ⟨1, 2⟩], tick := some true }
     i.reset = false ∧ i.issued (block 3) ≠ [] ∧ ⟨0, 1⟩ ∈ ready (i.issued (block 3)) ∧
      ⟨1, 2⟩ ∈ ready (i.issued (block 3))) ∧
    (let i : Instant := { reset := false, commands := [], tick := some true }
     i.reset = false ∧ i.issued (block 3) = [] ∧ i.tick = some true) := by decide

theorem witness_EachProducerPresentsItsOldestCommand :
    (block 3).Legal ∧ ⟨1, 0xBB11⟩ ∈ ready ((Instant.mk false [⟨0, 0xAA11⟩, ⟨1, 0xBB11⟩, ⟨2, 5⟩] none).issued (block 3)) ∧
    (⟨1, 0xBB11⟩ : Request).producer < (block 3).nprod := by decide

/-- Both producers, while one of them has two commands to issue. -/
theorem witness_EachProducersOrderIsKept :
    (block 3).hasProducer 0 = true ∧ (block 3).hasProducer 1 = true ∧
    (leads (step (givenWord (idle 3) 0x4011)) fun _ => true) = true ∧
    issuedBy 0 contended = [0xAA11, 0xCC11] ∧ issuedBy 1 contended = [0xBB11] := by decide

/-- A command and a tick. -/
theorem witness_EachCommandIsAnsweredToItsIssuer :
    ((leads (step (givenWord (idle 3) 0x4011)) fun _ => true) = true ∧
      upcoming (givenWord (idle 3) 0x4011) = some (.command ⟨0, 0x4011⟩, [⟨false, [], none⟩])) ∧
    ((leads (step (givenTick one true)) fun _ => true) = true ∧
      upcoming (givenTick one true) = some (.tick true, [])) :=
  ⟨⟨by decide, rfl⟩, by decide, rfl⟩

theorem witness_ResetSetsTheResetValues : (idle 3).params.Legal ∧ (idle 256).params.Legal := by decide

/-! ### Witnesses: the invariants -/

theorem witness_InvAtReset : (block 3).Legal ∧ (block 256).Legal ∧ Params.atReset.Legal := by
  refine ⟨by decide, by decide, by decide, by decide, ?_⟩
  simp [Params.atReset]

/-- A step from a state in the middle of a frame, and one from a state with frames queued. -/
theorem witness_EveryStepKeepsInv :
    (BlockInv (givenTick acking false) ∧ ∃ t, step (givenTick acking false) = .next t) ∧
    (BlockInv (givenWord one 0x211) ∧ ∃ t, step (givenWord one 0x211) = .next t) :=
  ⟨⟨blockInv_of _ (by decide), _, rfl⟩, blockInv_of _ (by decide), _, rfl⟩

theorem witness_StepNeverStops : BlockInv (givenTick acking false) ∧ BlockInv (givenReset full) :=
  ⟨blockInv_of _ (by decide), blockInv_of _ (by decide)⟩

/-- Items 5 and 6 of R36 are about a frame being sent: reached by the first ticks after a command. -/
theorem witness_ReachableStatesMeetTheInvariants :
    ∃ s, Reachable s ∧ Sending s ∧ s.timerOn = true := by
  obtain ⟨t, ht, ha⟩ : ∃ t, step (State.boot (block 3) [Instant.ofCommand 0x4011, Instant.ofTick false]) = .next t ∧
      (leads (step t) fun u => decide (Sending u) && u.timerOn) = true := ⟨_, rfl, by decide⟩
  have hr : Reachable t := .after _ t (.boot _ _ (by decide)) ht
  cases hu : step t with
  | next u => rw [hu] at ha; exact ⟨u, .after t u hr hu, by simpa [leads, Sending] using ha⟩
  | fault r => rw [hu] at ha; simp [leads] at ha
  | refused r => rw [hu] at ha; simp [leads] at ha

/-- A command and a tick, with one frame queued. -/
theorem witness_QueuedFramesDoNotChange :
    BlockInv (givenWord one 0x211) ∧
    (∃ t, step (givenWord one 0x211) = .next t ∧ t.resets = (givenWord one 0x211).resets) ∧
    0 < count (givenWord one 0x211) :=
  ⟨blockInv_of _ (by decide), ⟨_, rfl, rfl⟩, by decide⟩

theorem witness_CountTracksEnqueuesAndDequeues :
    QueueOk one ∧ (leads (commandTransaction 0x211 one) fun t => count t == 2) = true ∧
    expectedCode 0x211 one = .ok ∧ (leads (tickTransaction false one) fun t => count t == 0) = true ∧
    (leads (transact .reset one) fun t => count t == 0) = true := by decide

theorem witness_QueueIsFirstInFirstOut :
    (QueueOk one ∧ ∃ t, qEnq (byteFrame 9) one = .ok (true, t)) ∧
    (QueueOk (idle 3) ∧ ∃ t, qEnq2 (byteFrame 8) (byteFrame 9) (idle 3) = .ok (true, t)) ∧
    (BlockInv full ∧ ∃ t, qDeq full = .ok (some (byteFrame 1), t)) :=
  ⟨⟨by decide, _, rfl⟩, ⟨by decide, _, rfl⟩, witness_blockInv_queued.2.1, _, rfl⟩

/-- P3's three-slot queue, with the words of E1. -/
theorem witness_CapacityIsOneLessThanTheSlots :
    QueueOk (idle 3) ∧ isEmpty (idle 3) = true ∧ [0x111#64, 0x211#64, 0x311#64].length = (idle 3).params.n ∧
    (∀ w ∈ [0x111#64, 0x211#64, 0x311#64],
      framesAsked w = 1 ∧ reservedBitSet w = false ∧ illegalLength w = false) ∧
    ({ idle 3 with arrivals := [0x111#64, 0x211#64, 0x311#64].map Instant.ofCommand ++ [] } : State).arrivals =
      [0x111#64, 0x211#64, 0x311#64].map Instant.ofCommand ++ [] :=
  ⟨by decide, by decide, rfl, by simp only [List.forall_mem_cons]; exact ⟨by decide, by decide, by decide, by simp⟩,
    rfl⟩

/-- On by a command; off by the last U_DONE and by RESET. -/
theorem witness_TimerTurnsOnAndOffAsStated :
    (QueueOk (givenWord (idle 3) 0x4011) ∧ (givenWord (idle 3) 0x4011).timerOn = false ∧
      (leads (step (givenWord (idle 3) 0x4011)) fun t => t.timerOn) = true) ∧
    ((givenTick finishing false).timerOn = true ∧
      (leads (step (givenTick finishing false)) fun t => !t.timerOn) = true) ∧
    ((givenReset one).timerOn = true ∧ (leads (step (givenReset one)) fun t => !t.timerOn) = true) ∧
    (idle 3).timerOn = false :=
  ⟨by decide, by decide, by decide, by decide⟩

theorem witness_TimerStrobesAlternate :
    BlockInv (givenWord (idle 3) 0x4011) ∧ (givenWord (idle 3) 0x4011).timerOn = false ∧
    (∀ i ∈ (givenWord (idle 3) 0x4011).arrivals, i.reset = false) ∧
    (leads (run 1 (givenWord (idle 3) 0x4011)) fun t => t.trace == [.tmrStart]) = true :=
  ⟨blockInv_of _ (by decide), by decide⟩

theorem witness_RaceOrdersAgree :
    BlockInv finishing ∧ finishing.phase = DONE ∧ finishing.timerOn = true ∧ isEmpty finishing = true ∧
    (expectedCode 0x4011 finishing = .ok ∧ 1 ≤ framesAsked 0x4011) ∧
    (expectedCode 0x063FC022 finishing = .ok ∧ 1 ≤ framesAsked 0x063FC022) :=
  ⟨witness_blockInv_stop.2.2, by decide⟩

/-! ### Witnesses: the wire -/

/-- The start, the stop and no condition; and the closed gate. -/
theorem witness_DataMovesWithClockHighOnlyAtStartAndStop :
    (BlockInv (sending START 1 true true) ∧
      (leads (tickTransaction false (sending START 1 true true)) fun _ => true) = true) ∧
    (BlockInv (sending STOP 3 true false) ∧
      (leads (tickTransaction false (sending STOP 3 true false)) fun _ => true) = true) ∧
    (BlockInv (sending WRITEBIT 8 true false) ∧
      (leads (tickTransaction true (sending WRITEBIT 8 true false)) fun _ => true) = true) ∧
    (BlockInv (idle 3) ∧ (leads (tickTransaction true (idle 3)) fun _ => true) = true) :=
  ⟨⟨witness_blockInv_start.2.1, by decide⟩, ⟨witness_blockInv_stop.2.1, by decide⟩,
    ⟨witness_blockInv_writebit.2.1, by decide⟩, witness_blockInv_idle.1, by decide⟩

/-- The shortest frame and the longest one, with every acknowledgment missing. -/
theorem witness_FrameOnTheWire :
    (let s : State := { one with arrivals := ticks 21 (fun _ => true) ++ [] }
     BlockInv s ∧ s.phase = IDLE ∧ isEmpty s = false ∧ s.q.read s.tail = some (byteFrame 1) ∧
      s.arrivals = ticks (12 * (byteFrame 1).len.toNat + 9) (fun _ => true) ++ []) ∧
    (let s : State := { seven with arrivals := ticks 93 (fun _ => true) ++ [] }
     BlockInv s ∧ s.phase = IDLE ∧ isEmpty s = false ∧
      s.q.read s.tail = some ⟨7, #v[1, 2, 3, 4, 5, 6, 7]⟩ ∧
      s.arrivals = ticks (12 * (7 : BitVec 3).toNat + 9) (fun _ => true) ++ []) :=
  ⟨⟨blockInv_of _ (by decide), rfl, rfl, rfl, rfl⟩, blockInv_of _ (by decide), rfl, rfl, rfl, rfl⟩

/-- Two frames queued, and none. -/
theorem witness_QueueDrainsInOrder :
    (let s : State := { full with arrivals := ticks 42 (fun _ => false) ++ [] }
     BlockInv s ∧ s.phase = IDLE ∧ s.arrivals = ticks (drainTicks (contents s)) (fun _ => false) ++ []) ∧
    (BlockInv (idle 3) ∧ (idle 3).phase = IDLE ∧
      (idle 3).arrivals = ticks (drainTicks (contents (idle 3))) (fun _ => false) ++ []) :=
  ⟨⟨blockInv_of _ (by decide), rfl, rfl⟩, witness_blockInv_idle.1, rfl, rfl⟩

/-- Both registers at their largest value for N = 3, which names no slot, and a step that writes one of them. -/
theorem witness_IndexRegistersHoldIdxwBits :
    IndicesFit { idle 3 with head := 3, tail := 3 } ∧
    (IndicesFit (givenWord (idle 3) 0x4011) ∧
      (leads (step (givenWord (idle 3) 0x4011)) fun t => t.head == 1) = true) ∧
    QueueOk (idle 3) ∧ QueueOk (idle 256) := by decide

theorem witness_ParametersNeverChange : ∃ t, step (givenReset one) = .next t := ⟨_, rfl⟩

theorem witness_NoStrandedFrame : ∃ s, Reachable s ∧ isEmpty s = false := by
  obtain ⟨s, hr, he, _⟩ := witness_reachable.2
  exact ⟨s, hr, he⟩

end Sys2Proof.Tests
end

namespace Sys2Proof.Machine

/-! ### What a step does to the parameters and the index registers -/

/-- `IDXW` is the least width whose codes cover `N` slots: one bit less does not (R6). -/
theorem two_pow_idxWidth_sub_one_lt {n : Nat} (hn : 2 ≤ n) : 2 ^ (idxWidth n - 1) < n := by
  have hlog : 2 ^ (n - 1).log2 ≤ n - 1 := Nat.log2_self_le (by omega)
  simp only [idxWidth, Nat.add_sub_cancel]
  omega

/-- Indices that name slots fit in the index registers (R25). -/
theorem QueueOk.indicesFit {s : State} (h : QueueOk s) : IndicesFit s := by
  obtain ⟨_, hhead, htail⟩ := h
  have hcover := le_two_pow_idxWidth s.params.n
  exact ⟨hhead.trans_le hcover, htail.trans_le hcover⟩

/-- From `s` to `t` the parameters stay, and each index register keeps its value or takes one of `IDXW` bits: what
every transaction does to them, whatever it finds there. -/
structure IndexFrame (s t : State) : Prop where
  params : t.params = s.params
  head : t.head = s.head ∨ t.head < 2 ^ idxWidth s.params.n
  tail : t.tail = s.tail ∨ t.tail < 2 ^ idxWidth s.params.n

namespace IndexFrame

variable {s t u : State}

/-- Neither index register is written. -/
theorem of_eq (hp : t.params = s.params) (hh : t.head = s.head) (ht : t.tail = s.tail) : IndexFrame s t :=
  ⟨hp, .inl hh, .inl ht⟩

theorem trans (hst : IndexFrame s t) (htu : IndexFrame t u) : IndexFrame s u where
  params := htu.params.trans hst.params
  head := by
    rcases htu.head with h | h
    · exact h ▸ hst.head
    · exact .inr (hst.params ▸ h)
  tail := by
    rcases htu.tail with h | h
    · exact h ▸ hst.tail
    · exact .inr (hst.params ▸ h)

/-- What was changed beforehand is none of the fields the frame speaks of. -/
theorem after_eq (h : IndexFrame t u) (hp : t.params = s.params) (hh : t.head = s.head) (ht : t.tail = s.tail) :
    IndexFrame s u :=
  (of_eq hp hh ht).trans h

/-- The width of both index registers is kept. -/
theorem indicesFit (h : IndexFrame s t) (hs : IndicesFit s) : IndicesFit t := by
  obtain ⟨hhead, htail⟩ := hs
  rw [IndicesFit, h.params]
  exact ⟨h.head.elim (fun heq => heq ▸ hhead) id, h.tail.elim (fun heq => heq ▸ htail) id⟩

end IndexFrame

variable {s t : State}

/-- The index after a slot's fits in `IDXW` bits. -/
theorem inc_lt_two_pow_idxWidth {n i : Nat} (h : i < n) : inc n i < 2 ^ idxWidth n :=
  (inc_lt_of_lt h).trans_le (le_two_pow_idxWidth n)

/-! ### The queue primitives and SUBMIT -/

theorem enqueue_indexFrame {fs : Batch} {b : Bool} (h : fs.enqueue s = .ok (b, t)) : IndexFrame s t := by
  cases fs with
  | one f =>
    obtain ⟨_, _, rfl⟩ | ⟨_, _, hlt, rfl⟩ := qEnq_cases h
    · exact .of_eq rfl rfl rfl
    · exact ⟨rfl, .inr (inc_lt_two_pow_idxWidth hlt), .inl rfl⟩
  | two f1 f2 =>
    obtain ⟨_, _, rfl⟩ | ⟨_, _, _, hlt, rfl⟩ := qEnq2_cases h
    · exact .of_eq rfl rfl rfl
    · exact ⟨rfl, .inr (inc_lt_two_pow_idxWidth hlt), .inl rfl⟩

theorem qDeq_indexFrame {o : Option Frame} (h : qDeq s = .ok (o, t)) : IndexFrame s t := by
  obtain ⟨_, _, rfl⟩ | ⟨_, hlt, _, rfl⟩ := qDeq_cases h
  · exact .of_eq rfl rfl rfl
  · exact ⟨rfl, .inl rfl, .inr (inc_lt_two_pow_idxWidth hlt)⟩

/-- Everything `SUBMIT` can lead to in any state: `ERR_FULL` alone, or the frames written, the wake and `OK`
(R170). -/
theorem submit_next_cases {fs : Batch} (h : submit fs s = .next t) :
    t = s.raise .errFull ∨ ∃ s1, fs.enqueue s = .ok (true, s1) ∧ t = (wake s1).respond .ok false 0 := by
  unfold submit at h
  split at h
  · exact .inl (Host.Outcome.next.inj h).symm
  · split at h
    · exact nomatch h
    · exact .inl (Host.Outcome.next.inj h).symm
    · rename_i s1 henq
      exact .inr ⟨s1, henq, (Host.Outcome.next.inj h).symm⟩

theorem submit_indexFrame {fs : Batch} (h : submit fs s = .next t) : IndexFrame s t := by
  obtain rfl | ⟨s1, henq, rfl⟩ := submit_next_cases h
  · exact .of_eq rfl rfl rfl
  · exact (enqueue_indexFrame henq).trans (.of_eq (by simp) (by simp) (by simp))

/-! ### The instructions that can end in more than one way -/

/-- Two checks that answer with an error, then `SUBMIT`: the shape of ENQ and WRDISP (R84, R171, R172). -/
theorem checkedSubmit_indexFrame {p q : Prop} [Decidable p] [Decidable q] {c d : RspCode} {fs : Batch}
    (h : (if p then .next (s.raise c) else if q then .next (s.raise d) else submit fs s) = .next t) :
    IndexFrame s t := by
  split_ifs at h
  · obtain rfl := Host.Outcome.next.inj h
    exact .of_eq rfl rfl rfl
  · obtain rfl := Host.Outcome.next.inj h
    exact .of_eq rfl rfl rfl
  · exact submit_indexFrame h

/-- U_IDLE writes `TAIL` through `Q_DEQ` alone (R132, R133). -/
theorem execUIdle_indexFrame (h : execUIdle s = .next t) : IndexFrame s t := by
  unfold execUIdle at h
  split at h
  · exact nomatch h
  · rename_i s1 hdeq
    obtain rfl := Host.Outcome.next.inj h
    exact qDeq_indexFrame hdeq
  · rename_i f s1 hdeq
    obtain rfl := Host.Outcome.next.inj h
    exact (qDeq_indexFrame hdeq).trans (.of_eq rfl rfl rfl)

theorem execUWbit_indexFrame {k : BitVec 3} (h : execUWbit k s = .next t) : IndexFrame s t := by
  unfold execUWbit at h
  split at h
  · exact nomatch h
  · obtain rfl := Host.Outcome.next.inj h
    exact .of_eq rfl rfl rfl

theorem execUAcke_indexFrame (h : execUAcke s = .next t) : IndexFrame s t := by
  unfold execUAcke at h
  split at h <;> obtain rfl := Host.Outcome.next.inj h <;> exact .of_eq rfl rfl rfl

theorem execUDone_indexFrame (h : execUDone s = .next t) : IndexFrame s t := by
  unfold execUDone at h
  split at h <;> obtain rfl := Host.Outcome.next.inj h <;> exact .of_eq rfl rfl rfl

/-! ### Every instruction, every transaction, every step -/

theorem exec_indexFrame {i : Instr} (h : exec i s = .next t) : IndexFrame s t := by
  cases i with
  | enq | wrdisp => exact checkedSubmit_indexFrame h
  | wrseg | bright | don | doff | wrbyte => exact submit_indexFrame h
  | uIdle => exact execUIdle_indexFrame h
  | uWbit => exact execUWbit_indexFrame h
  | uAcke => exact execUAcke_indexFrame h
  | uDone => exact execUDone_indexFrame h
  | uAcks =>
    obtain rfl := Host.Outcome.next.inj h
    exact .of_eq (by simp) (by simp) (by simp)
  | ackrc | stat | uStart0 | uStart1 | uStart2 | uWprep | uWclkh | uStop0 | uStop1 | uStop2 | uStop3 =>
    obtain rfl := Host.Outcome.next.inj h
    exact .of_eq rfl rfl rfl

theorem resetTransaction_indexFrame (s : State) : IndexFrame s (resetTransaction s) :=
  ⟨rfl, .inr (Nat.two_pow_pos _), .inr (Nat.two_pow_pos _)⟩

theorem commandTransaction_indexFrame {w : CommandWord} (h : commandTransaction w s = .next t) :
    IndexFrame s t := by
  obtain ⟨i, _, hexec⟩ | ⟨_, _, hill⟩ := commandTransaction_cases w s
  · exact exec_indexFrame (hexec.symm.trans h)
  · obtain rfl := Host.Outcome.next.inj (hill.symm.trans h)
    exact .of_eq rfl rfl rfl

theorem tickTransaction_indexFrame {a : Bool} (h : tickTransaction a s = .next t) : IndexFrame s t := by
  obtain ⟨_, hdrop⟩ | ⟨_, i, _, hexec⟩ | ⟨_, _, _, hfault⟩ := tickTransaction_cases a s
  · obtain rfl := Host.Outcome.next.inj (hdrop.symm.trans h)
    exact .of_eq rfl rfl rfl
  · exact (exec_indexFrame (hexec.symm.trans h)).after_eq rfl rfl rfl
  · exact nomatch hfault.symm.trans h

theorem transact_indexFrame {e : PortEvent} (h : transact e s = .next t) : IndexFrame s t := by
  cases e with
  | reset =>
    obtain rfl := Host.Outcome.next.inj h
    exact resetTransaction_indexFrame s
  | command r => exact (commandTransaction_indexFrame h).after_eq rfl rfl rfl
  | tick a => exact tickTransaction_indexFrame h

theorem step_indexFrame (h : step s = .next t) : IndexFrame s t := by
  obtain ⟨_, rfl⟩ | ⟨e, rest, _, htrans⟩ := step_cases h
  · exact .of_eq rfl rfl rfl
  · exact (transact_indexFrame htrans).after_eq rfl rfl rfl

end Sys2Proof.Machine

section
open Sys2Proof Sys2Proof.Machine

/-- Settles O56: every step keeps the parameters and leaves in `HEAD` and `TAIL` what they held or an index of
`IDXW` bits. -/
theorem indexRegistersHoldIdxwBits : Obligations.IndexRegistersHoldIdxwBits := by
  refine ⟨?width, rfl, ?boot, ?step, ?slots⟩
  case width => exact fun n hn _ => ⟨le_two_pow_idxWidth n, two_pow_idxWidth_sub_one_lt (by omega)⟩
  case boot => exact fun _ _ => ⟨Nat.two_pow_pos _, Nat.two_pow_pos _⟩
  case step => exact fun _ _ hfit hstep => (step_indexFrame hstep).indicesFit hfit
  case slots => exact fun _ hok => hok.indicesFit

/-- Settles O57: the parameters are in the frame of every step. -/
theorem parametersNeverChange : Obligations.ParametersNeverChange :=
  fun _ _ hstep => (step_indexFrame hstep).params

end

namespace Sys2Proof.Machine

variable {s t : State}

/-! ### What each micro-step answers -/

/-- U_IDLE in a state that it does not leave by a fault: it stays on an empty queue, or the frame at `TAIL` becomes
the current one (R132, R133). -/
theorem execUIdle_cases (h : execUIdle s = .next t) :
    (isEmpty s = true ∧ t = s) ∨
    (isEmpty s = false ∧ s.tail < s.params.n ∧ ∃ f, f = (s.q.read s.tail).getD (Frame.unwritten s.resets s.tail) ∧
      t = (({ s with tail := inc s.params.n s.tail } : State).loadFrame f).enterPhase START) := by
  unfold execUIdle at h
  split at h
  · exact nomatch h
  · rename_i s1 hdeq
    obtain ⟨_, hempty, rfl⟩ | ⟨_, _, hnone, _⟩ := qDeq_cases hdeq
    · exact .inl ⟨hempty, (Host.Outcome.next.inj h).symm⟩
    · exact nomatch hnone
  · rename_i f s1 hdeq
    obtain ⟨hsome, _, _⟩ | ⟨hne, hlt, hf, rfl⟩ := qDeq_cases hdeq
    · exact nomatch hsome
    · exact .inr ⟨hne, hlt, f, Option.some.inj hf, (Host.Outcome.next.inj h).symm⟩

/-- U_WBIT answers when `CUR_B[BPTR]` exists (R137). -/
theorem execUWbit_cases {k : BitVec 3} (h : execUWbit k s = .next t) :
    ∃ x, s.curB[s.bptr.toNat]? = some x ∧
      t = (((s.driveClk false).driveDio (x.getLsbD k.toNat)).driveClk true).setSub (k.setWidth 4 + 1) := by
  unfold execUWbit at h
  split at h
  · exact nomatch h
  · rename_i x hx
    exact ⟨x, hx, (Host.Outcome.next.inj h).symm⟩

/-- U_ACKE goes on to the next byte or to the stop condition (R141). -/
theorem execUAcke_cases (h : execUAcke s = .next t) :
    (s.rem ≠ 0 ∧
      t = ({ s.driveClk false with rem := s.rem - 1, bptr := s.bptr + 1 } : State).enterPhase WRITEBIT) ∨
    (s.rem = 0 ∧ t = (s.driveClk false).enterPhase STOP) := by
  unfold execUAcke at h
  split at h <;> rename_i hrem <;> obtain rfl := Host.Outcome.next.inj h
  · exact .inl ⟨hrem, rfl⟩
  · exact .inr ⟨not_not.mp hrem, rfl⟩

/-- U_DONE stops the timer exactly on an empty queue (R146). -/
theorem execUDone_cases (h : execUDone s = .next t) :
    (isEmpty s = true ∧ t = (s.enterPhase IDLE).timerStop) ∨ (isEmpty s = false ∧ t = s.enterPhase IDLE) := by
  unfold execUDone at h
  split at h <;> rename_i hempty <;> obtain rfl := Host.Outcome.next.inj h
  · exact .inl ⟨hempty, rfl⟩
  · exact .inr ⟨Bool.not_eq_true _ ▸ hempty, rfl⟩

/-! ### The frame of a micro-step -/

/-- What the micro-step `i` leaves as it was: the written-by column of R20, read for one micro-step. -/
structure MicroFrame (i : Instr) (s t : State) : Prop where
  q : t.q = s.q
  head : t.head = s.head
  responses : t.responses = s.responses
  params : t.params = s.params
  arrivals : t.arrivals = s.arrivals
  issuers : t.issuers = s.issuers
  dioIn : t.dioIn = s.dioIn
  resets : t.resets = s.resets
  taken : t.taken = s.taken
  frame : i ≠ .uIdle → t.tail = s.tail ∧ t.curLen = s.curLen ∧ t.curB = s.curB
  bytes : i ≠ .uIdle → i ≠ .uAcke → t.bptr = s.bptr ∧ t.rem = s.rem
  ackMiss : i ≠ .uAcks → t.ackMiss = s.ackMiss
  timerOn : i ≠ .uDone → t.timerOn = s.timerOn
  lines : i = .uIdle ∨ i = .uAcks ∨ i = .uDone → t.clkOut = s.clkOut ∧ t.dioOut = s.dioOut
  trace : ∃ es, t.trace = s.trace ++ es ∧ es.length ≤ 3

theorem MicroFrame.refl (i : Instr) (s : State) : MicroFrame i s s := by constructor <;> simp

theorem uIdle_microFrame (h : exec .uIdle s = .next t) : MicroFrame .uIdle s t := by
  obtain ⟨_, rfl⟩ | ⟨_, _, f, _, rfl⟩ := execUIdle_cases h
  · exact .refl _ _
  · constructor <;> simp

theorem uWbit_microFrame {k : BitVec 3} (h : exec (.uWbit k) s = .next t) : MicroFrame (.uWbit k) s t := by
  obtain ⟨x, _, rfl⟩ := execUWbit_cases h
  constructor <;> simp

theorem uAcke_microFrame (h : exec .uAcke s = .next t) : MicroFrame .uAcke s t := by
  obtain ⟨_, rfl⟩ | ⟨_, rfl⟩ := execUAcke_cases h <;> constructor <;> simp

theorem uDone_microFrame (h : exec .uDone s = .next t) : MicroFrame .uDone s t := by
  obtain ⟨_, rfl⟩ | ⟨_, rfl⟩ := execUDone_cases h <;> constructor <;> simp

theorem exec_microFrame {i : Instr} (hi : isMicroStep i = true) (h : exec i s = .next t) : MicroFrame i s t := by
  cases i with
  | enq | wrdisp | wrseg | bright | don | doff | ackrc | stat | wrbyte => exact nomatch hi
  | uIdle => exact uIdle_microFrame h
  | uWbit => exact uWbit_microFrame h
  | uAcke => exact uAcke_microFrame h
  | uDone => exact uDone_microFrame h
  | uStart0 | uStart1 | uStart2 | uWprep | uWclkh | uAcks | uStop0 | uStop1 | uStop2 | uStop3 =>
    obtain rfl := Host.Outcome.next.inj h
    constructor <;> simp

end Sys2Proof.Machine

section
open Sys2Proof Sys2Proof.Machine

/-- Settles O30: every micro-step has the frame that R20's written-by column gives it. -/
theorem microStepsLeaveTheQueueSideAlone : Obligations.MicroStepsLeaveTheQueueSideAlone := by
  intro i s t hi h
  obtain ⟨hq, hhead, hresp, hparams, harr, hiss, hdio, hresets, htaken, hframe, hbytes, hack, htimer, hlines, htrace⟩ :=
    exec_microFrame hi h
  exact ⟨hq, hhead, hresp, hparams, harr, hiss, hdio, hresets, htaken, hframe, hbytes, hack, htimer, hlines, htrace⟩

end

namespace Sys2Proof.Machine

variable {s t : State}

/-! ### What a command word decodes to -/

/-- The rows of R82: an opcode and an instruction that it stands for. -/
inductive CommandRow : BitVec 4 → Instr → Prop
  | enq (len : BitVec 3) (b : Vector Byte 7) : CommandRow 1 (.enq len b)
  | wrbyte (b : Byte) : CommandRow 1 (.wrbyte b)
  | wrdisp (c : BitVec 3) (a : Byte) (segs : Vector Byte 6) : CommandRow 2 (.wrdisp c a segs)
  | wrseg (a seg : Byte) : CommandRow 3 (.wrseg a seg)
  | bright (lvl : BitVec 3) : CommandRow 4 (.bright lvl)
  | don : CommandRow 5 .don
  | doff : CommandRow 6 .doff
  | ackrc : CommandRow 7 .ackrc
  | stat : CommandRow 8 .stat

theorem decodeIf_ok {b : Bool} {i j : Instr} (h : decodeIf b j = .ok i) : i = j := by
  unfold decodeIf at h
  split at h
  · exact (Except.ok.inj h).symm
  · exact nomatch h

theorem decodeEnq_commandRow (w : CommandWord) : CommandRow 1 (decodeEnq w) := by
  unfold decodeEnq
  split
  · exact .wrbyte _
  · exact .enq _ _

/-- A command word decodes to an instruction of its opcode's row. -/
theorem commandRow_of_decode {w : CommandWord} {i : Instr} (h : decodeCommand w = .ok i) :
    CommandRow (w.extractLsb' 0 4) i := by
  have opcode {k : Nat} (hk : (opField w).toNat = k) : w.extractLsb' 0 4 = BitVec.ofNat 4 k := by
    rw [← hk, BitVec.ofNat_toNat, BitVec.setWidth_eq, opField]
  have row {k : Nat} {j : Instr} {b : Bool} (hk : (opField w).toNat = k) (hj : decodeIf b j = .ok i)
      (hrow : CommandRow (BitVec.ofNat 4 k) j) : CommandRow (w.extractLsb' 0 4) i := by
    rw [opcode hk, decodeIf_ok hj]; exact hrow
  unfold decodeCommand at h
  split at h
  · exact row ‹_› h (decodeEnq_commandRow w)
  · exact row ‹_› h (.wrdisp _ _ _)
  · exact row ‹_› h (.wrseg _ _)
  · exact row ‹_› h (.bright _)
  · exact row ‹_› h .don
  · exact row ‹_› h .doff
  · exact row ‹_› h .ackrc
  · exact row ‹_› h .stat
  · exact nomatch h

theorem framesAsked_eq_one {w : CommandWord} (h : w.extractLsb' 0 4 = 1) : framesAsked w = 1 := by
  simp [framesAsked, h]

/-- The opcodes 2 to 6 enqueue two frames (R182). -/
theorem framesAsked_eq_two {w : CommandWord} {op : BitVec 4} (h : w.extractLsb' 0 4 = op) (hop : 2 ≤ op ∧ op ≤ 6) :
    framesAsked w = 2 := by
  have twoToSix : ∀ op : BitVec 4, 2 ≤ op ∧ op ≤ 6 → op = 2 ∨ op = 3 ∨ op = 4 ∨ op = 5 ∨ op = 6 := by decide
  rcases twoToSix op hop with rfl | rfl | rfl | rfl | rfl <;> simp [framesAsked, h]

/-! ### The frame of a command -/

/-- What the command word `w` leaves as it was, and that it answers once: the written-by column of R20 and R14, read
for one command. -/
structure CommandFrame (w : CommandWord) (s t : State) : Prop where
  phase : t.phase = s.phase
  sub : t.sub = s.sub
  bptr : t.bptr = s.bptr
  rem : t.rem = s.rem
  curLen : t.curLen = s.curLen
  curB : t.curB = s.curB
  tail : t.tail = s.tail
  clkOut : t.clkOut = s.clkOut
  dioOut : t.dioOut = s.dioOut
  dioIn : t.dioIn = s.dioIn
  params : t.params = s.params
  arrivals : t.arrivals = s.arrivals
  issuers : t.issuers = s.issuers
  resets : t.resets = s.resets
  taken : t.taken = s.taken
  ackMiss : w.extractLsb' 0 4 ≠ 7 → t.ackMiss = s.ackMiss
  queue : framesAsked w = 0 → t.q = s.q ∧ t.head = s.head ∧ t.timerOn = s.timerOn ∧ t.trace = s.trace
  slots : ∀ j, j ≠ s.head → (framesAsked w ≤ 1 ∨ j ≠ inc s.params.n s.head) → t.q.read j = s.q.read j
  answer : ∃ r, t.responses = s.responses ++ [r]

theorem respond_commandFrame (w : CommandWord) (s : State) (c : RspCode) (r : Bool) (d : BitVec 29) :
    CommandFrame w s (s.respond c r d) := by constructor <;> simp

/-- One slot written for one frame, the next one too for a second. -/
theorem enqueue_commandFrame {w : CommandWord} {fs : Batch} (h : fs.enqueue s = .ok (true, t))
    (hw : framesAsked w = fs.size) : CommandFrame w s ((wake t).respond .ok false 0) := by
  cases fs with
  | one f =>
    obtain ⟨hfalse, _⟩ | ⟨_, _, _, rfl⟩ := qEnq_cases h
    · exact nomatch hfalse
    · rw [Batch.size] at hw
      constructor <;> simp +contextual [hw, Memory.read_write]
  | two f1 f2 =>
    obtain ⟨hfalse, _⟩ | ⟨_, _, _, _, rfl⟩ := qEnq2_cases h
    · exact nomatch hfalse
    · rw [Batch.size] at hw
      constructor <;> simp +contextual [hw, Memory.read_write]

theorem submit_commandFrame {w : CommandWord} {fs : Batch} (h : submit fs s = .next t)
    (hw : framesAsked w = fs.size) : CommandFrame w s t := by
  obtain rfl | ⟨s1, henq, rfl⟩ := submit_next_cases h
  · exact respond_commandFrame ..
  · exact enqueue_commandFrame henq hw

/-- Two checks that answer with an error, then `SUBMIT`: the shape of ENQ and WRDISP (R84, R171, R172). -/
theorem checkedSubmit_commandFrame {w : CommandWord} {p q : Prop} [Decidable p] [Decidable q] {c d : RspCode}
    {fs : Batch} (h : (if p then .next (s.raise c) else if q then .next (s.raise d) else submit fs s) = .next t)
    (hw : framesAsked w = fs.size) : CommandFrame w s t := by
  split_ifs at h
  · obtain rfl := Host.Outcome.next.inj h
    exact respond_commandFrame ..
  · obtain rfl := Host.Outcome.next.inj h
    exact respond_commandFrame ..
  · exact submit_commandFrame h hw

theorem execAckrc_commandFrame {w : CommandWord} (hop : w.extractLsb' 0 4 = 7) (h : execAckrc s = .next t) :
    CommandFrame w s t := by
  obtain rfl := Host.Outcome.next.inj h
  constructor <;> simp [hop]

/-- The meaning of a command of the row of `w`. -/
theorem exec_commandFrame {w : CommandWord} {i : Instr} (hrow : CommandRow (w.extractLsb' 0 4) i)
    (h : exec i s = .next t) : CommandFrame w s t := by
  generalize hop : w.extractLsb' 0 4 = op at hrow
  cases hrow with
  | enq => exact checkedSubmit_commandFrame h (framesAsked_eq_one hop)
  | wrbyte => exact submit_commandFrame h (framesAsked_eq_one hop)
  | wrdisp => exact checkedSubmit_commandFrame h (framesAsked_eq_two hop (by decide))
  | wrseg | bright | don | doff => exact submit_commandFrame h (framesAsked_eq_two hop (by decide))
  | ackrc => exact execAckrc_commandFrame hop h
  | stat =>
    obtain rfl := Host.Outcome.next.inj h
    exact respond_commandFrame ..

theorem commandTransaction_commandFrame {w : CommandWord} (h : commandTransaction w s = .next t) :
    CommandFrame w s t := by
  obtain ⟨i, hdec, hexec⟩ | ⟨_, _, hill⟩ := commandTransaction_cases w s
  · exact exec_commandFrame (commandRow_of_decode hdec) (hexec.symm.trans h)
  · obtain rfl := Host.Outcome.next.inj (hill.symm.trans h)
    exact respond_commandFrame w s .errIllegal false 0

end Sys2Proof.Machine

section
open Sys2Proof Sys2Proof.Machine

/-- Settles O19: every command has the frame that R20's written-by column gives it. -/
theorem commandsLeaveTheSequencerAlone : Obligations.CommandsLeaveTheSequencerAlone := by
  intro w s t h
  obtain ⟨hphase, hsub, hbptr, hrem, hlen, hbytes, htail, hclk, hdio, hin, hparams, harr, hiss, hresets, htaken,
    hack, hqueue, hslots, hanswer⟩ := commandTransaction_commandFrame h
  exact ⟨hphase, hsub, hbptr, hrem, hlen, hbytes, htail, hclk, hdio, hin, hparams, harr, hiss, hresets, htaken,
    hack, hqueue, hslots, hanswer⟩

end

namespace Sys2Proof.Machine

variable {s t : State}

/-! ### The invariant in three parts -/

/-- The part of the invariant that reads the queue alone: R36 items 2 and 7, the slot file and R62. -/
structure QueueInv (s : State) : Prop where
  ok : QueueOk s
  queued : ∀ j < count s, ∃ f, slotAt s j = some f ∧ 1 ≤ f.len.toNat
  slots_wf : s.q.wf
  slots_legal : ∀ e ∈ s.q, e.1 < s.params.n ∧ e.2.Legal

/-- The part that reads the sequencer alone: R36 items 1, 5 and 6, the last as part of the line levels. -/
structure SequencerInv (s : State) : Prop where
  position : LegalPosition s.phase s.sub
  current_frame : Sending s → 1 ≤ s.curLen.toNat ∧ s.bptr.toNat + s.rem.toNat = s.curLen.toNat - 1
  lines : LineLevels s

/-- The part that ties them through the timer: R36 items 3 and 4. -/
structure TimerInv (s : State) : Prop where
  idle_when_off : s.timerOn = false → s.phase = IDLE ∧ isEmpty s = true
  busy_when_on : s.timerOn = true → s.phase ≠ IDLE ∨ isEmpty s = false

theorem blockInv_iff : BlockInv s ↔ QueueInv s ∧ SequencerInv s ∧ TimerInv s := by
  constructor
  · intro h
    exact ⟨⟨⟨h.params_legal, h.head_lt, h.tail_lt⟩, h.queued, h.slots_wf, h.slots_legal⟩,
      ⟨h.position, h.current_frame, h.lines⟩, ⟨h.idle_when_off, h.busy_when_on⟩⟩
  · rintro ⟨⟨⟨hparams, hhead, htail⟩, hqueued, hwf, hlegal⟩, ⟨hpos, hcur, hlines⟩, ⟨hoff, hon⟩⟩
    have ⟨hhigh, _⟩ := hlines
    exact ⟨hparams, hpos, hhead, htail, hoff, hon, hcur, fun hack _ => (hhigh (.inr (.inl hack))).symm, hqueued,
      hlines, hwf, hlegal⟩

theorem BlockInv.queueInv (h : BlockInv s) : QueueInv s := (blockInv_iff.mp h).1
theorem BlockInv.sequencerInv (h : BlockInv s) : SequencerInv s := (blockInv_iff.mp h).2.1
theorem BlockInv.queueOk (h : BlockInv s) : QueueOk s := h.queueInv.ok

/-- The invariant reads neither the ports, nor the trace, nor `ACK_MISS`, nor the model's own counters. -/
theorem BlockInv.with_unread (h : BlockInv s) (ackMiss : BitVec 8) (trace : List Event) (dioIn : Bool)
    (responses : List ResponseWord) (issuers : List Nat) (arrivals : List Instant) (resets taken : Nat) :
    BlockInv { s with
      ackMiss := ackMiss, trace := trace, dioIn := dioIn, responses := responses, issuers := issuers
      arrivals := arrivals, resets := resets, taken := taken } :=
  { h with }

theorem BlockInv.answered (h : BlockInv s) (r : ResponseWord) : BlockInv (answered s r) :=
  h.with_unread ..

theorem QueueInv.congr (h : QueueInv s) (hp : t.params = s.params) (hh : t.head = s.head) (ht : t.tail = s.tail)
    (hq : t.q = s.q) : QueueInv t where
  ok := by rw [QueueOk, hp, hh, ht]; exact h.ok
  queued j hj := by
    rw [count_congr hp hh ht] at hj
    rw [slotAt, hq, ht, hp]
    exact h.queued j hj
  slots_wf := hq ▸ h.slots_wf
  slots_legal := by rw [hq, hp]; exact h.slots_legal

/-- An empty queue with an empty slot file, which is what reset leaves. -/
theorem queueInv_reset (hp : s.params.Legal) (hh : s.head = 0) (ht : s.tail = 0) (hq : s.q = []) : QueueInv s := by
  have hn : 0 < s.params.n := by obtain ⟨hn, _⟩ := hp; omega
  have hok : QueueOk s := ⟨hp, hh ▸ hn, ht ▸ hn⟩
  have hcount : count s = 0 := (isEmpty_iff_count hok).mp ((isEmpty_iff s).mpr (hh.trans ht.symm))
  exact ⟨hok, fun j hj => absurd hj (by omega), hq ▸ Memory.wf_nil, fun e he => absurd (hq ▸ he) List.not_mem_nil⟩

/-- The registers at the values of R40 and R260 meet the invariant. -/
theorem blockInv_of_resetValues (hp : s.params.Legal) (hphase : s.phase = IDLE) (hsub : s.sub = 0) (hh : s.head = 0)
    (ht : s.tail = 0) (hq : s.q = []) (hoff : s.timerOn = false) (hclk : s.clkOut = true) (hdio : s.dioOut = true) :
    BlockInv s := by
  refine blockInv_iff.mpr ⟨queueInv_reset hp hh ht hq, ⟨.inl ⟨hphase, hsub⟩, ?_, ?_⟩, ⟨fun _ => ⟨hphase, ?_⟩, ?_⟩⟩
  · simp [Sending, hphase]
  · simp [LineLevels, hphase, hclk, hdio]
  · exact (isEmpty_iff s).mpr (hh.trans ht.symm)
  · simp [hoff]

/-! ### Enqueue and dequeue -/

/-- The queue after `Q_ENQ` of a frame that went in (R113). -/
def State.pushed (f : Frame) (s : State) : State :=
  { s with q := s.q.write s.head f, head := inc s.params.n s.head }

theorem queueOk_pushed (h : QueueOk s) (f : Frame) : QueueOk (s.pushed f) := by
  obtain ⟨hparams, hhead, htail⟩ := h
  exact ⟨hparams, inc_lt_of_lt hhead, htail⟩

theorem count_pushed (h : QueueOk s) (hf : isFull s = false) (f : Frame) : count (s.pushed f) = count s + 1 :=
  count_enq h hf rfl rfl rfl

/-- A frame that went in stands at `HEAD`, behind all the others (R117). -/
theorem QueueInv.pushed (h : QueueInv s) (hfull : isFull s = false) {f : Frame} (hf : f.Legal) :
    QueueInv (s.pushed f) where
  ok := queueOk_pushed h.ok f
  queued j hj := by
    rw [count_pushed h.ok hfull] at hj
    have hslot : slotAt (s.pushed f) j = (s.q.write s.head f).read ((s.tail + j) % s.params.n) := rfl
    rw [hslot]
    rcases Nat.lt_succ_iff_lt_or_eq.mp hj with hlt | rfl
    · rw [Memory.read_write_other (place_ne_head h.ok hlt)]
      exact h.queued j hlt
    · obtain ⟨hlen, _⟩ := hf
      rw [place_count h.ok, Memory.read_write_same]
      exact ⟨f, rfl, Nat.pos_of_ne_zero fun h0 => hlen (BitVec.eq_of_toNat_eq h0)⟩
  slots_wf := Memory.wf_write h.slots_wf _ _
  slots_legal e he := by
    rcases Memory.mem_write he with rfl | he
    · obtain ⟨_, hhead, _⟩ := h.ok
      exact ⟨hhead, hf⟩
    · exact h.slots_legal e he

theorem isFull_eq_false_of_free (h : QueueOk s) (hf : 1 ≤ free s) : isFull s = false := by
  rw [← Bool.not_eq_true, isFull_iff_free h]
  omega

/-- With two slots free, one is still free after the first frame. -/
theorem isFull_pushed (h : QueueOk s) (hf : 2 ≤ free s) (f : Frame) : isFull (s.pushed f) = false := by
  have hcount := count_pushed h (isFull_eq_false_of_free h (by omega)) f
  refine isFull_eq_false_of_free (queueOk_pushed h f) ?_
  have hn : (s.pushed f).params.n = s.params.n := rfl
  simp only [free, hcount, hn] at hf ⊢
  omega

/-- The place after a place, counted from the slot after `TAIL`. -/
theorem place_inc_tail (h : QueueOk s) (j : Nat) :
    (inc s.params.n s.tail + j) % s.params.n = (s.tail + (j + 1)) % s.params.n := by
  obtain ⟨_, _, htail⟩ := h
  rw [inc_eq_mod htail, Nat.mod_add_mod, Nat.add_right_comm, Nat.add_assoc]

/-- `Q_DEQ` moves every frame one place forward (R115, R117). -/
theorem QueueInv.dequeued (h : QueueInv s) (hne : isEmpty s = false) :
    QueueInv { s with tail := inc s.params.n s.tail } where
  ok := by
    obtain ⟨hparams, hhead, htail⟩ := h.ok
    exact ⟨hparams, hhead, inc_lt_of_lt htail⟩
  queued j hj := by
    have hcount : count s = count { s with tail := inc s.params.n s.tail } + 1 := count_deq h.ok hne rfl rfl rfl
    have hplace : slotAt { s with tail := inc s.params.n s.tail } j = slotAt s (j + 1) :=
      congrArg s.q.read (place_inc_tail h.ok j)
    rw [hplace]
    exact h.queued (j + 1) (by omega)
  slots_wf := h.slots_wf
  slots_legal := h.slots_legal

/-- The oldest frame of a queue that is not empty is a written one with at least one byte. -/
theorem QueueInv.oldest (h : QueueInv s) (hne : isEmpty s = false) :
    ∃ f, s.q.read s.tail = some f ∧ 1 ≤ f.len.toNat := by
  have hcount : count s ≠ 0 := fun h0 => by simp [(isEmpty_iff_count h.ok).mpr h0] at hne
  obtain ⟨f, hf, hlen⟩ := h.queued 0 (by omega)
  obtain ⟨_, _, htail⟩ := h.ok
  rw [slotAt, Nat.add_zero, Nat.mod_eq_of_lt htail] at hf
  exact ⟨f, hf, hlen⟩

/-! ### Commands -/

/-- The answer is a next state, and that state meets the invariant. -/
def LeadsToInv (a : Answer) : Prop := ∃ t, a = .next t ∧ BlockInv t

theorem leadsToInv_next (h : BlockInv t) : LeadsToInv (.next t) := ⟨t, rfl, h⟩

/-- A command that enqueued wakes the timer, so a queue that is not empty is being sent (R211). -/
theorem BlockInv.accepted (h : BlockInv s) {q : Memory} {hd : Nat}
    (hq : QueueInv { s with q := q, head := hd }) (hne : hd ≠ s.tail) : BlockInv (accepted s q hd) := by
  have hempty : isEmpty (Machine.accepted s q hd) = false := by simpa [isEmpty] using hne
  refine blockInv_iff.mpr ⟨hq.congr rfl rfl rfl rfl, { h.sequencerInv with }, ⟨fun hoff => ?_, fun _ => .inr hempty⟩⟩
  obtain ⟨hoff, hphase⟩ : s.timerOn = false ∧ s.phase ≠ IDLE := by simpa using hoff
  exact absurd (h.idle_when_off hoff).1 hphase

/-- Every frame of the batch is laid out as R62 says. -/
def Batch.Legal : Batch → Prop
  | .one f => f.Legal
  | .two f1 f2 => f1.Legal ∧ f2.Legal

theorem head_pushed_ne_tail (hfull : isFull s = false) (f : Frame) : (s.pushed f).head ≠ s.tail := by
  simpa [isFull, State.pushed] using hfull

/-- `SUBMIT` of legal frames completes and keeps the invariant, whether there is room or not (R170). -/
theorem submit_leadsToInv (h : BlockInv s) {fs : Batch} (hfs : fs.Legal) : LeadsToInv (submit fs s) := by
  have hok := h.queueOk
  by_cases hfree : free s < fs.size
  · rw [submit_full hfree]
    exact leadsToInv_next (h.answered 1)
  · cases fs with
    | one f =>
      have hroom : 1 ≤ free s := Nat.not_lt.mp hfree
      have hfull := isFull_eq_false_of_free hok hroom
      rw [submit_one_free hok hroom]
      exact leadsToInv_next (h.accepted (h.queueInv.pushed hfull hfs) (head_pushed_ne_tail hfull f))
    | two f1 f2 =>
      have hroom : 2 ≤ free s := Nat.not_lt.mp hfree
      obtain ⟨hf1, hf2⟩ := hfs
      have hfirst := h.queueInv.pushed (isFull_eq_false_of_free hok (by omega)) hf1
      have hfull := isFull_pushed hok hroom f1
      rw [submit_two_free hok hroom]
      exact leadsToInv_next (h.accepted (hfirst.pushed hfull hf2) (head_pushed_ne_tail hfull f2))

/-- Two checks that answer with an error, then `SUBMIT`: the shape of ENQ and WRDISP (R84, R171, R172). -/
theorem checkedSubmit_leadsToInv {p q : Prop} [Decidable p] [Decidable q] {c d : RspCode} {fs : Batch}
    (h : BlockInv s) (hfs : ¬ q → fs.Legal) :
    LeadsToInv (if p then .next (s.raise c) else if q then .next (s.raise d) else submit fs s) := by
  split_ifs with _ hq
  · exact leadsToInv_next (h.with_unread ..)
  · exact leadsToInv_next (h.with_unread ..)
  · exact submit_leadsToInv h (hfs hq)

theorem Frame.legal_singleton (x : Byte) : (Frame.of [x]).Legal := legal_of _ (by simp) (by simp)

theorem rawFrame_legal {len : BitVec 3} (h : len ≠ 0) (b : Vector Byte 7) : (rawFrame len b).Legal := by
  have hlen : len.toNat ≠ 0 := fun h0 => h (BitVec.eq_of_toNat_eq h0)
  have hlt := len.isLt
  have htake : (b.toList.take len.toNat).length = len.toNat := by simp; omega
  exact Frame.legal_of _ (fun hnil => by simp [hnil] at htake; omega) (by omega)

theorem displayFrame_legal (c : BitVec 3) (a : Byte) (segs : Vector Byte 6) : (displayFrame c a segs).Legal :=
  Frame.legal_of _ (by simp) (by simp)

/-- Every command completes and keeps the invariant. -/
theorem exec_command_leadsToInv {op : BitVec 4} {i : Instr} (h : BlockInv s) (hrow : CommandRow op i) :
    LeadsToInv (exec i s) := by
  cases hrow with
  | enq len b => exact checkedSubmit_leadsToInv h fun hlen => rawFrame_legal hlen b
  | wrdisp c a segs =>
    exact checkedSubmit_leadsToInv h fun _ => ⟨Frame.legal_singleton _, displayFrame_legal c a segs⟩
  | wrbyte b => exact submit_leadsToInv h (Frame.legal_singleton b)
  | wrseg a seg => exact submit_leadsToInv h ⟨Frame.legal_singleton _, Frame.legal_of _ (by simp) (by simp)⟩
  | bright | don | doff => exact submit_leadsToInv h ⟨Frame.legal_singleton _, Frame.legal_singleton _⟩
  | ackrc | stat => exact leadsToInv_next (h.with_unread ..)

theorem commandTransaction_leadsToInv (h : BlockInv s) (w : CommandWord) : LeadsToInv (commandTransaction w s) := by
  obtain ⟨i, hdec, hexec⟩ | ⟨_, _, hill⟩ := commandTransaction_cases w s
  · rw [hexec]
    exact exec_command_leadsToInv h (commandRow_of_decode hdec)
  · rw [hill]
    exact leadsToInv_next (h.answered 3)

end Sys2Proof.Machine

namespace Sys2Proof.Machine

variable {s t : State}

/-! ### Micro-states -/

/-- The rows of R100: a position of the sequencer and the micro-step that it stands for. -/
inductive MicroRow : BitVec 3 → BitVec 4 → Instr → Prop
  | uIdle : MicroRow IDLE 0 .uIdle
  | uStart0 : MicroRow START 0 .uStart0
  | uStart1 : MicroRow START 1 .uStart1
  | uStart2 : MicroRow START 2 .uStart2
  | uWbit (k : BitVec 3) : MicroRow WRITEBIT (k.setWidth 4) (.uWbit k)
  | uWprep : MicroRow WRITEBIT 8 .uWprep
  | uWclkh : MicroRow WRITEBIT 9 .uWclkh
  | uAcks : MicroRow READACK 0 .uAcks
  | uAcke : MicroRow READACK 1 .uAcke
  | uStop0 : MicroRow STOP 0 .uStop0
  | uStop1 : MicroRow STOP 1 .uStop1
  | uStop2 : MicroRow STOP 2 .uStop2
  | uStop3 : MicroRow STOP 3 .uStop3
  | uDone : MicroRow DONE 0 .uDone

/-- The bits and the two steps after them in `WRITEBIT`. -/
theorem writebit_sub_cases :
    ∀ k : BitVec 4, k ≤ 9 → k = 8 ∨ k = 9 ∨ k = (k.setWidth 3).setWidth 4 := by decide

/-- Every legal position has its row (R22, R100). -/
theorem microRow_of_legalPosition {p : BitVec 3} {k : BitVec 4} (h : LegalPosition p k) : ∃ i, MicroRow p k i := by
  have upToOne : ∀ k : BitVec 4, k ≤ 1 → k = 0 ∨ k = 1 := by decide
  have upToTwo : ∀ k : BitVec 4, k ≤ 2 → k = 0 ∨ k = 1 ∨ k = 2 := by decide
  have upToThree : ∀ k : BitVec 4, k ≤ 3 → k = 0 ∨ k = 1 ∨ k = 2 ∨ k = 3 := by decide
  rcases h with ⟨rfl, rfl⟩ | ⟨rfl, hk⟩ | ⟨rfl, hk⟩ | ⟨rfl, hk⟩ | ⟨rfl, hk⟩ | ⟨rfl, rfl⟩
  · exact ⟨_, .uIdle⟩
  · rcases upToTwo k hk with rfl | rfl | rfl
    exacts [⟨_, .uStart0⟩, ⟨_, .uStart1⟩, ⟨_, .uStart2⟩]
  · rcases writebit_sub_cases k hk with rfl | rfl | hbit
    · exact ⟨_, .uWprep⟩
    · exact ⟨_, .uWclkh⟩
    · rw [hbit]
      exact ⟨_, .uWbit _⟩
  · rcases upToOne k hk with rfl | rfl
    exacts [⟨_, .uAcks⟩, ⟨_, .uAcke⟩]
  · rcases upToThree k hk with rfl | rfl | rfl | rfl
    exacts [⟨_, .uStop0⟩, ⟨_, .uStop1⟩, ⟨_, .uStop2⟩, ⟨_, .uStop3⟩]
  · exact ⟨_, .uDone⟩

theorem decodeMicro_of_microRow {p : BitVec 3} {k : BitVec 4} {i : Instr} (h : MicroRow p k i) :
    decodeMicro (p ++ k) = .ok i := by
  cases h with
  | uWbit k => revert k; decide
  | _ => rfl

/-! ### Micro-steps -/

/-- A micro-step of a frame being sent leaves the queue and the timer alone, so the rest is the sequencer's part. -/
theorem BlockInv.of_microFrame {i : Instr} (h : BlockInv s) (hframe : MicroFrame i s t) (hidle : i ≠ .uIdle)
    (hdone : i ≠ .uDone) (hon : s.timerOn = true) (hbusy : t.phase ≠ IDLE) (hseq : SequencerInv t) :
    BlockInv t := by
  obtain ⟨htail, _, _⟩ := hframe.frame hidle
  refine blockInv_iff.mpr ⟨h.queueInv.congr hframe.params hframe.head htail hframe.q, hseq, ?_, fun _ => .inl hbusy⟩
  rw [hframe.timerOn hdone, hon]
  exact nofun

/-- A micro-step that neither loads a frame nor counts a byte keeps the current frame (R36 item 5). -/
theorem BlockInv.exec_leadsToInv {i : Instr} (h : BlockInv s) (hon : s.timerOn = true) (hmicro : isMicroStep i = true)
    (hexec : exec i s = .next t) (hidle : i ≠ .uIdle) (hacke : i ≠ .uAcke) (hdone : i ≠ .uDone) (hsend : Sending s)
    (hbusy : t.phase ≠ IDLE) (hpos : LegalPosition t.phase t.sub) (hlines : LineLevels t) :
    LeadsToInv (exec i s) := by
  have hframe := exec_microFrame hmicro hexec
  obtain ⟨_, hlen, _⟩ := hframe.frame hidle
  obtain ⟨hbptr, hrem⟩ := hframe.bytes hidle hacke
  refine ⟨t, hexec, h.of_microFrame hframe hidle hdone hon hbusy ⟨hpos, fun _ => ?_, hlines⟩⟩
  rw [hlen, hbptr, hrem]
  exact h.current_frame hsend

/-- U_IDLE takes the oldest frame: the timer is on, so there is one (R132, R36 item 4). -/
theorem uIdle_leadsToInv (h : BlockInv s) (hon : s.timerOn = true) (hphase : s.phase = IDLE) :
    LeadsToInv (exec .uIdle s) := by
  obtain ⟨hhigh, _⟩ := h.lines
  obtain ⟨hclk, hdio⟩ := hhigh (.inl hphase)
  have hne : isEmpty s = false := (h.busy_when_on hon).resolve_left (not_not.mpr hphase)
  obtain ⟨f, hread, hlen⟩ := h.queueInv.oldest hne
  have hexec : exec .uIdle s =
      .next ((({ s with tail := inc s.params.n s.tail } : State).loadFrame f).enterPhase START) := by
    simp [exec, execUIdle, qDeq_written hne h.tail_lt hread]
  refine ⟨_, hexec, blockInv_iff.mpr ⟨(h.queueInv.dequeued hne).congr rfl rfl rfl rfl, ⟨?pos, ?cur, ?lines⟩, ?off, ?on⟩⟩
  case pos => exact .inr (.inl ⟨rfl, by simp⟩)
  case cur =>
    refine fun _ => ⟨hlen, ?_⟩
    show (0 : BitVec 3).toNat + (f.len - 1).toNat = f.len.toNat - 1
    bv_omega
  case lines => simp [LineLevels, hclk, hdio]
  case off => simp [hon]
  case on => simp

theorem lineLevels_writebit (hphase : s.phase = WRITEBIT) (hclk : s.clkOut = decide (1 ≤ s.sub ∧ s.sub ≤ 8))
    (hdio : s.sub = 9 → s.dioOut = true) : LineLevels s :=
  ⟨by simp [hphase], by simp [hphase], fun _ => ⟨hclk, hdio⟩, by simp [hphase]⟩

theorem uWbit_leadsToInv {k : BitVec 3} (h : BlockInv s) (hon : s.timerOn = true) (hphase : s.phase = WRITEBIT) :
    LeadsToInv (exec (.uWbit k) s) := by
  have hsend : Sending s := .inr (.inl hphase)
  obtain ⟨hlen, hsum⟩ := h.current_frame hsend
  have hbptr : s.bptr.toNat < 7 := by have := s.curLen.isLt; omega
  have hexec : exec (.uWbit k) s = .next ((((s.driveClk false).driveDio
      (s.curB[s.bptr.toNat].getLsbD k.toNat)).driveClk true).setSub (k.setWidth 4 + 1)) := by
    simp [exec, execUWbit, hbptr]
  have hsub : ∀ k : BitVec 3, 1 ≤ k.setWidth 4 + 1 ∧ k.setWidth 4 + 1 ≤ 8 ∧ k.setWidth 4 + 1 ≤ 9 ∧
      k.setWidth 4 + 1 ≠ 9 := by decide
  obtain ⟨h1, h8, h9, hne⟩ := hsub k
  refine h.exec_leadsToInv hon rfl hexec nofun nofun nofun hsend (by simp [hphase]) ?_ ?_
  · exact .inr (.inr (.inl ⟨hphase, h9⟩))
  · exact lineLevels_writebit hphase (decide_eq_true ⟨h1, h8⟩).symm fun h => absurd h hne

/-- U_ACKE moves one byte from `REM` to `BPTR` or ends the frame (R141). -/
theorem uAcke_leadsToInv (h : BlockInv s) (hon : s.timerOn = true) (hphase : s.phase = READACK) :
    LeadsToInv (exec .uAcke s) := by
  obtain ⟨hlen, hsum⟩ := h.current_frame (.inr (.inr (.inl hphase)))
  obtain ⟨hhigh, _⟩ := h.lines
  obtain ⟨_, hdio⟩ := hhigh (.inr (.inl hphase))
  by_cases hrem : s.rem = 0
  · have hexec : exec .uAcke s = .next ((s.driveClk false).enterPhase STOP) := if_neg (not_not.mpr hrem)
    refine ⟨_, hexec, h.of_microFrame (uAcke_microFrame hexec) nofun nofun hon (by simp) ⟨?_, ?_, ?_⟩⟩
    · exact .inr (.inr (.inr (.inr (.inl ⟨rfl, by simp⟩))))
    · exact fun _ => ⟨hlen, hsum⟩
    · simp [LineLevels, hdio]
  · have hexec : exec .uAcke s =
        .next (({ s.driveClk false with rem := s.rem - 1, bptr := s.bptr + 1 } : State).enterPhase WRITEBIT) :=
      if_pos hrem
    refine ⟨_, hexec, h.of_microFrame (uAcke_microFrame hexec) nofun nofun hon (by simp) ⟨?_, ?_, ?_⟩⟩
    · exact .inr (.inr (.inl ⟨rfl, by simp⟩))
    · have hpos : 1 ≤ s.rem.toNat := Nat.pos_of_ne_zero fun h0 => hrem (BitVec.eq_of_toNat_eq h0)
      intro _
      refine ⟨hlen, ?_⟩
      show (s.bptr + 1).toNat + (s.rem - 1).toNat = s.curLen.toNat - 1
      bv_omega
    · simp [LineLevels]

/-- U_DONE leaves the timer on exactly when a frame is queued (R146, R36 items 3 and 4). -/
theorem uDone_leadsToInv (h : BlockInv s) (hon : s.timerOn = true) (hphase : s.phase = DONE) :
    LeadsToInv (exec .uDone s) := by
  obtain ⟨hhigh, _⟩ := h.lines
  obtain ⟨hclk, hdio⟩ := hhigh (.inr (.inr hphase))
  have hseq {u : State} (hp : u.phase = IDLE) (hk : u.sub = 0) (hc : u.clkOut = s.clkOut) (hd : u.dioOut = s.dioOut) :
      SequencerInv u :=
    ⟨.inl ⟨hp, hk⟩, by simp [Sending, hp], by simp [LineLevels, hp, hc, hd, hclk, hdio]⟩
  cases hempty : isEmpty s with
  | true =>
    have hexec : exec .uDone s = .next (s.enterPhase IDLE).timerStop := by simp [exec, execUDone, hempty]
    exact ⟨_, hexec, blockInv_iff.mpr
      ⟨h.queueInv.congr rfl rfl rfl rfl, hseq rfl rfl rfl rfl, ⟨fun _ => ⟨rfl, hempty⟩, nofun⟩⟩⟩
  | false =>
    have hexec : exec .uDone s = .next (s.enterPhase IDLE) := by simp [exec, execUDone, hempty]
    exact ⟨_, hexec, blockInv_iff.mpr
      ⟨h.queueInv.congr rfl rfl rfl rfl, hseq rfl rfl rfl rfl, ⟨by simp [hon], fun _ => .inr hempty⟩⟩⟩

/-- The micro-step of any legal position completes and keeps the invariant. For those that only drive lines and move
on, what is left is that the next position is legal and that the lines stand at its levels, the ones not driven by the
levels of the position before. -/
theorem exec_micro_leadsToInv {i : Instr} (h : BlockInv s) (hon : s.timerOn = true)
    (hrow : MicroRow s.phase s.sub i) : LeadsToInv (exec i s) := by
  obtain ⟨hhigh, hstart, hbit, hstop⟩ := h.lines
  generalize hphase : s.phase = p at hrow
  generalize hsub : s.sub = k at hrow
  cases hrow with
  | uIdle => exact uIdle_leadsToInv h hon hphase
  | uWbit => exact uWbit_leadsToInv h hon hphase
  | uAcke => exact uAcke_leadsToInv h hon hphase
  | uDone => exact uDone_leadsToInv h hon hphase
  | uStart0 | uStart1 | uStart2 | uWprep | uWclkh | uAcks | uStop0 | uStop1 | uStop2 | uStop3 =>
    refine h.exec_leadsToInv hon rfl rfl nofun nofun nofun ?_ ?_ ?_ ?_
    · simp [Sending, hphase]
    · simp [hphase]
    · simp [LegalPosition, hphase]
    · simp_all [LineLevels]

end Sys2Proof.Machine

namespace Sys2Proof.Machine

variable {s t : State}

/-! ### Every transaction, every step -/

/-- A tick completes and keeps the invariant: the gate is closed, or the position is legal and has its row. -/
theorem tickTransaction_leadsToInv (h : BlockInv s) (a : Bool) : LeadsToInv (tickTransaction a s) := by
  obtain ⟨i, hrow⟩ := microRow_of_legalPosition h.position
  have hdecode : decodeMicro (microState s) = .ok i := decodeMicro_of_microRow hrow
  obtain ⟨_, hdrop⟩ | ⟨hon, j, hok, hexec⟩ | ⟨_, e, herror, _⟩ := tickTransaction_cases a s
  · rw [hdrop]
    exact leadsToInv_next h
  · obtain rfl := Except.ok.inj (hdecode.symm.trans hok)
    rw [hexec]
    have hin : BlockInv { s with dioIn := a } := h.with_unread ..
    exact exec_micro_leadsToInv hin hon hrow
  · exact nomatch hdecode.symm.trans herror

theorem resetTransaction_blockInv (h : BlockInv s) : BlockInv (resetTransaction s) :=
  blockInv_of_resetValues h.params_legal rfl rfl rfl rfl rfl rfl rfl rfl

theorem transact_leadsToInv (h : BlockInv s) (e : PortEvent) : LeadsToInv (transact e s) := by
  cases e with
  | reset => exact leadsToInv_next (resetTransaction_blockInv h)
  | command r => exact commandTransaction_leadsToInv (h.with_unread ..) r.word
  | tick a => exact tickTransaction_leadsToInv h a

/-- From a state that meets the invariant every step completes and keeps it. -/
theorem step_leadsToInv (h : BlockInv s) : LeadsToInv (step s) := by
  unfold step
  split
  · exact leadsToInv_next h
  · exact transact_leadsToInv (h.with_unread ..) _

theorem step_keeps_blockInv (h : BlockInv s) (hstep : step s = .next t) : BlockInv t := by
  obtain ⟨u, hu, hinv⟩ := step_leadsToInv h
  obtain rfl := Host.Outcome.next.inj (hu.symm.trans hstep)
  exact hinv

theorem boot_blockInv {p : Params} (hp : p.Legal) (arrivals : List Instant) : BlockInv (State.boot p arrivals) :=
  blockInv_of_resetValues hp rfl rfl rfl rfl rfl rfl rfl rfl

theorem Reachable.blockInv (h : Reachable s) : BlockInv s :=
  h.induct (fun _ arrivals hp => boot_blockInv hp arrivals) fun _ _ => step_keeps_blockInv

theorem phase_le_five_of_legalPosition {p : BitVec 3} {k : BitVec 4} (h : LegalPosition p k) : p.toNat ≤ 5 := by
  rcases h with ⟨rfl, _⟩ | ⟨rfl, _⟩ | ⟨rfl, _⟩ | ⟨rfl, _⟩ | ⟨rfl, _⟩ | ⟨rfl, _⟩ <;> decide

end Sys2Proof.Machine

section
open Sys2Proof Sys2Proof.Machine

/-- Settles O40: the registers at reset are those of R40, and those meet the invariant. -/
theorem invAtReset : Obligations.InvAtReset := fun _ arrivals hp => boot_blockInv hp arrivals

/-- Settles O41: each transaction keeps the queue's part, the sequencer's part and the timer's part of the
invariant. -/
theorem everyStepKeepsInv : Obligations.EveryStepKeepsInv := fun _ _ => step_keeps_blockInv

/-- Settles O42: under the invariant each transaction completes. -/
theorem stepNeverStops : Obligations.StepNeverStops := by
  intro s h
  obtain ⟨t, hstep, _⟩ := step_leadsToInv h
  exact ⟨t, hstep⟩

/-- Settles O43: the invariant holds of every reachable state; the bounds of 7 are the widths of the registers. -/
theorem reachableStatesMeetTheInvariants : Obligations.ReachableStatesMeetTheInvariants := by
  intro s hreach
  have h := hreach.blockInv
  refine ⟨⟨phase_le_five_of_legalPosition h.position, h.position⟩, ⟨h.head_lt, h.tail_lt⟩, h.idle_when_off,
    h.busy_when_on, fun hsend => ?_, h.ack_window, fun j hj => ?_⟩
  · obtain ⟨hlen, hsum⟩ := h.current_frame hsend
    exact ⟨hlen, Nat.le_of_lt_succ s.curLen.isLt, hsum⟩
  · obtain ⟨f, hf, hlen⟩ := h.queued j hj
    exact ⟨f, hf, hlen, Nat.le_of_lt_succ f.len.isLt⟩

/-- Settles O39: the values of R40 are those written in `State.reset`. -/
theorem resetStateHoldsTheStatedValues : Obligations.ResetStateHoldsTheStatedValues :=
  ⟨rfl, rfl, rfl, rfl, rfl, rfl, rfl, rfl, rfl, rfl, rfl, rfl⟩

end

namespace Sys2Proof.Machine

variable {s : State}

/-! ### STATUS -/

/-- The bits of `STATUS`, field by field (R35). -/
theorem status_getLsbD (s : State) (i : Nat) :
    (status s).getLsbD i =
      if i < 3 then false else if i < 4 then isEmpty s else if i < 5 then isFull s else if i < 6 then s.timerOn
      else if i < 7 then ackClean s else if i < 8 then false else if i < 11 then s.phase.getLsbD (i - 8)
      else if i < 12 then false else if i < 16 then s.sub.getLsbD (i - 12)
      else if i < 24 then (BitVec.ofNat 8 (count s)).getLsbD (i - 16) else s.ackMiss.getLsbD (i - 24) := by
  by_cases hi : i < 32
  · simp only [status, BitVec.getLsbD_append]
    interval_cases i <;> simp
  · have h : 32 ≤ i := Nat.not_lt.mp hi
    rw [BitVec.getLsbD_of_ge _ _ h]
    repeat rw [if_neg (by omega)]
    rw [BitVec.getLsbD_of_ge _ _ (by omega)]

/-- A field of `STATUS` is what its bits are. -/
theorem status_field {lo w : Nat} {v : BitVec w} (h : ∀ i < w, (status s).getLsbD (lo + i) = v.getLsbD i) :
    (status s).extractLsb' lo w = v :=
  BitVec.eq_of_getLsbD_eq fun i hi => by simpa [hi] using h i hi

theorem status_code (s : State) : (status s).extractLsb' 0 2 = 0 :=
  status_field fun i hi => by rw [status_getLsbD]; interval_cases i <;> simp

theorem status_phase (s : State) : (status s).extractLsb' 8 3 = s.phase :=
  status_field fun i hi => by rw [status_getLsbD]; interval_cases i <;> simp

theorem status_sub (s : State) : (status s).extractLsb' 12 4 = s.sub :=
  status_field fun i hi => by rw [status_getLsbD]; interval_cases i <;> simp

/-- `COUNT` fits its field: it is less than `N`, and `N` is at most 256 (R6). -/
theorem status_count (h : QueueOk s) : ((status s).extractLsb' 16 8).toNat = count s := by
  have hfield : (status s).extractLsb' 16 8 = BitVec.ofNat 8 (count s) :=
    status_field fun i hi => by rw [status_getLsbD]; interval_cases i <;> simp
  have hlt := count_lt h
  obtain ⟨⟨_, hn, _⟩, _⟩ := h
  rw [hfield, BitVec.toNat_ofNat, Nat.mod_eq_of_lt (by omega)]

theorem status_ackMiss (s : State) : (status s).extractLsb' 24 8 = s.ackMiss :=
  status_field fun i hi => by rw [status_getLsbD]; interval_cases i <;> simp

/-- The response word of STAT is `STATUS`, whose low three bits are 0 (R90, R178). -/
theorem responseWord_status (s : State) :
    responseWord .ok false ((status s).extractLsb' 3 29) = status s := by
  refine BitVec.eq_of_getLsbD_eq fun i hi => ?_
  have hlow : ∀ j < 3, (status s).getLsbD j = false := fun j hj => by rw [status_getLsbD, if_pos hj]
  simp only [responseWord, BitVec.getLsbD_append]
  by_cases h3 : i < 3
  · rw [hlow i h3]
    interval_cases i <;> simp [RspCode.bits]
  · have h2 : ¬ i < 2 := by omega
    have h1 : ¬ i - 2 < 1 := by omega
    have hi' : i - 2 - 1 < 29 := by omega
    have hadd : 3 + (i - 2 - 1) = i := by omega
    simp [h2, h1, hi', hadd]

end Sys2Proof.Machine

section
open Sys2Proof Sys2Proof.Machine

/-- Settles O17: the bits of `STATUS` one by one, then its fields, then STAT's response. -/
theorem statusFields : Obligations.StatusFields := by
  intro s
  refine ⟨status_code s, ?res2, ?empty, ?full, ?timer, ?clean, ?res7, status_phase s, ?res11, status_sub s,
    status_count, status_ackMiss s, ?stat⟩
  case res2 | empty | full | timer | clean | res7 | res11 => rw [status_getLsbD]; rfl
  case stat => exact congrArg (fun r => Host.Outcome.next (answered s r)) (responseWord_status s)

end

namespace Sys2Proof.Machine

/-! ### The slots of queued frames -/

/-- From `s` to `t` every slot that holds a queued frame of `s` reads as before. The places are those of `s`: `TAIL`
may move. -/
def QueuedKept (s t : State) : Prop :=
  ∀ j < count s, t.q.read ((s.tail + j) % s.params.n) = s.q.read ((s.tail + j) % s.params.n)

variable {s t : State}

theorem QueuedKept.of_eq (hq : t.q = s.q) : QueuedKept s t := fun _ _ => by rw [hq]

/-- The slot that `Q_ENQ` writes holds no queued frame. -/
theorem pushed_queuedKept (h : QueueOk s) (f : Frame) : QueuedKept s (s.pushed f) :=
  fun _ hj => Memory.read_write_other (place_ne_head h hj)

/-- The frames queued before the first enqueue are still queued at the second. -/
theorem pushed_pushed_queuedKept (h : QueueOk s) (hfull : isFull s = false) (f1 f2 : Frame) :
    QueuedKept s ((s.pushed f1).pushed f2) := by
  intro j hj
  have hj1 : j < count (s.pushed f1) := by
    rw [count_pushed h hfull]
    exact Nat.lt_succ_of_lt hj
  exact (pushed_queuedKept (queueOk_pushed h f1) f2 j hj1).trans (pushed_queuedKept h f1 j hj)

theorem enqueue_queuedKept (h : QueueOk s) {fs : Batch} (henq : fs.enqueue s = .ok (true, t)) : QueuedKept s t := by
  cases fs with
  | one f =>
    obtain ⟨hfalse, _⟩ | ⟨_, _, _, rfl⟩ := qEnq_cases henq
    · exact nomatch hfalse
    · exact pushed_queuedKept h f
  | two f1 f2 =>
    obtain ⟨hfalse, _⟩ | ⟨_, hfree, _, _, rfl⟩ := qEnq2_cases henq
    · exact nomatch hfalse
    · exact pushed_pushed_queuedKept h (isFull_eq_false_of_free h (by omega)) f1 f2

/-! ### Every instruction, every transaction, every step -/

theorem submit_queuedKept (h : QueueOk s) {fs : Batch} (hsub : submit fs s = .next t) : QueuedKept s t := by
  obtain rfl | ⟨s1, henq, rfl⟩ := submit_next_cases hsub
  · exact .of_eq rfl
  · intro j hj
    rw [State.respond_q, wake_q]
    exact enqueue_queuedKept h henq j hj

/-- Two checks that answer with an error, then `SUBMIT`: the shape of ENQ and WRDISP (R84, R171, R172). -/
theorem checkedSubmit_queuedKept (h : QueueOk s) {p q : Prop} [Decidable p] [Decidable q] {c d : RspCode} {fs : Batch}
    (hsub : (if p then .next (s.raise c) else if q then .next (s.raise d) else submit fs s) = .next t) :
    QueuedKept s t := by
  split_ifs at hsub
  · obtain rfl := Host.Outcome.next.inj hsub
    exact .of_eq rfl
  · obtain rfl := Host.Outcome.next.inj hsub
    exact .of_eq rfl
  · exact submit_queuedKept h hsub

/-- Only `SUBMIT` writes slots; a micro-step leaves the slot file alone (R20). -/
theorem exec_queuedKept (h : QueueOk s) {i : Instr} (hexec : exec i s = .next t) : QueuedKept s t := by
  cases i with
  | enq | wrdisp => exact checkedSubmit_queuedKept h hexec
  | wrseg | bright | don | doff | wrbyte => exact submit_queuedKept h hexec
  | ackrc | stat =>
    obtain rfl := Host.Outcome.next.inj hexec
    exact .of_eq rfl
  | uIdle | uStart0 | uStart1 | uStart2 | uWbit | uWprep | uWclkh | uAcks | uAcke | uStop0 | uStop1 | uStop2
  | uStop3 | uDone => exact .of_eq (exec_microFrame rfl hexec).q

theorem commandTransaction_queuedKept (h : QueueOk s) {w : CommandWord} (htrans : commandTransaction w s = .next t) :
    QueuedKept s t := by
  obtain ⟨i, _, hexec⟩ | ⟨_, _, hill⟩ := commandTransaction_cases w s
  · exact exec_queuedKept h (hexec.symm.trans htrans)
  · obtain rfl := Host.Outcome.next.inj (hill.symm.trans htrans)
    exact .of_eq rfl

theorem tickTransaction_queuedKept (h : QueueOk s) {a : Bool} (htrans : tickTransaction a s = .next t) :
    QueuedKept s t := by
  obtain ⟨_, hdrop⟩ | ⟨_, i, _, hexec⟩ | ⟨_, _, _, hfault⟩ := tickTransaction_cases a s
  · obtain rfl := Host.Outcome.next.inj (hdrop.symm.trans htrans)
    exact .of_eq rfl
  · exact exec_queuedKept (s := { s with dioIn := a }) h (hexec.symm.trans htrans)
  · exact nomatch hfault.symm.trans htrans

/-- RESET alone leaves the slots unspecified, and RESET alone is counted (R260). -/
theorem transact_queuedKept (h : QueueOk s) {e : PortEvent} (htrans : transact e s = .next t)
    (hresets : t.resets = s.resets) : QueuedKept s t := by
  cases e with
  | reset =>
    obtain rfl := Host.Outcome.next.inj htrans
    exact absurd hresets (Nat.succ_ne_self _)
  | command r =>
    exact commandTransaction_queuedKept (s := { s with issuers := s.issuers ++ [r.producer] }) h htrans
  | tick a => exact tickTransaction_queuedKept h htrans

theorem step_queuedKept (h : QueueOk s) (hstep : step s = .next t) (hresets : t.resets = s.resets) :
    QueuedKept s t := by
  obtain ⟨_, rfl⟩ | ⟨e, rest, _, htrans⟩ := step_cases hstep
  · exact .of_eq rfl
  · exact transact_queuedKept (s := { s with arrivals := rest, taken := s.taken + 1 }) h htrans hresets

end Sys2Proof.Machine

section
open Sys2Proof Sys2Proof.Machine

/-- Settles O45: an enqueue writes slots that hold no queued frame, and no other transaction but RESET writes one. -/
theorem queuedFramesDoNotChange : Obligations.QueuedFramesDoNotChange :=
  fun _ _ hinv hstep hresets => step_queuedKept hinv.queueOk hstep hresets

end

namespace Sys2Proof

/-! ### Lanes of a command word -/

/-- Bit i of lane `B<k>` is bit 8k + 8 + i of the word (R80). -/
theorem lane_getLsbD (w : CommandWord) (k i : Nat) :
    (lane w k).getLsbD i = (decide (i < 8) && w.getLsbD (8 * k + 8 + i)) :=
  BitVec.getLsbD_extractLsb' ..

/-- There is no lane above `B6`. -/
theorem lane_eq_zero_of_ge (w : CommandWord) {k : Nat} (hk : 7 ≤ k) : lane w k = 0 :=
  BitVec.zero_iff_eq_false.mpr fun i => by
    rw [lane_getLsbD, BitVec.getLsbD_of_ge w _ (by omega), Bool.and_false]

/-- Nothing is left above the low `k` bits exactly when each bit there is 0. -/
theorem ushiftRight_eq_zero_iff (w : CommandWord) (k : Nat) :
    w >>> k = 0 ↔ ∀ i, k ≤ i → w.getLsbD i = false := by
  refine BitVec.zero_iff_eq_false.trans ⟨fun h i hi => ?_, fun h i => ?_⟩
  · simpa [hi] using h (i - k)
  · rw [BitVec.getLsbD_ushiftRight]
    exact h _ (Nat.le_add_right k i)

theorem lanesClearFrom_iff_bits (w : CommandWord) (k : Nat) :
    lanesClearFrom w k = true ↔ ∀ i, 8 * k + 8 ≤ i → w.getLsbD i = false := by
  rw [lanesClearFrom, beq_iff_eq]
  exact ushiftRight_eq_zero_iff w _

/-- The bits from lane `B<k>` on are 0 exactly when each of these lanes is. -/
theorem lanesClearFrom_iff (w : CommandWord) (k : Nat) :
    lanesClearFrom w k = true ↔ ∀ j, k ≤ j → lane w j = 0 := by
  rw [lanesClearFrom_iff_bits]
  constructor
  · exact fun h j hj => BitVec.zero_iff_eq_false.mpr fun i => by
      rw [lane_getLsbD, h _ (by omega), Bool.and_false]
  · intro h i hi
    have hbit := BitVec.zero_iff_eq_false.mp (h ((i - 8) / 8) (by omega)) ((i - 8) % 8)
    have hplace : 8 * ((i - 8) / 8) + 8 + (i - 8) % 8 = i := by omega
    rwa [lane_getLsbD, decide_eq_true (Nat.mod_lt _ (by decide)), Bool.true_and, hplace] at hbit

theorem lane_eq_zero {w : CommandWord} {k j : Nat} (h : lanesClearFrom w k = true) (hj : k ≤ j := by decide) :
    lane w j = 0 :=
  (lanesClearFrom_iff w k).mp h j hj

/-- The first `m` lanes from `B<j>` on, as a vector, are 0 from index `n` on exactly when the word's lanes are, if no
lane lies above them. -/
theorem lanesZeroFrom_ofFn_lane (w : CommandWord) {m : Nat} (j n : Nat) (hm : 7 ≤ j + m) :
    LanesZeroFrom n (Vector.ofFn fun k : Fin m => lane w (k + j)) ↔ lanesClearFrom w (n + j) = true := by
  simp only [lanesClearFrom_iff, LanesZeroFrom, Fin.getElem_fin, Vector.getElem_ofFn]
  constructor
  · intro h i hi
    by_cases hlt : i < 7
    · have hlane := h ⟨i - j, by omega⟩ (show n ≤ i - j by omega)
      rwa [show i - j + j = i by omega] at hlane
    · exact lane_eq_zero_of_ge w (Nat.not_lt.mp hlt)
  · exact fun h k hk => h _ (Nat.add_le_add_right hk j)

/-! ### A word and its fields -/

/-- A word is made of its fields (R80). -/
theorem commandWord_of_fields {w : CommandWord} {op : BitVec 4} {len : BitVec 3} {b0 b1 b2 b3 b4 b5 b6 : Byte}
    (hop : opField w = op) (hlen : lenField w = len) (hz : zField w = false) (h0 : lane w 0 = b0)
    (h1 : lane w 1 = b1) (h2 : lane w 2 = b2) (h3 : lane w 3 = b3) (h4 : lane w 4 = b4) (h5 : lane w 5 = b5)
    (h6 : lane w 6 = b6) : commandWord op len b0 b1 b2 b3 b4 b5 b6 = w := by
  subst hop hlen h0 h1 h2 h3 h4 h5 h6
  have hz' : w[7] = false := hz
  refine BitVec.eq_of_getLsbD_eq fun i hi => ?_
  rw [commandWord_getLsbD]
  interval_cases i <;> simp [opField, lenField, lane, hz']

variable (op : BitVec 4) (len : BitVec 3) (b0 b1 b2 b3 b4 b5 b6 : Byte)

/-- The lanes of an encoded word are its bytes. -/
theorem lane_commandWord_bytes (k : Fin 7) :
    lane (commandWord op len b0 b1 b2 b3 b4 b5 b6) k = #v[b0, b1, b2, b3, b4, b5, b6][k] :=
  lane_commandWord op len #v[b0, b1, b2, b3, b4, b5, b6] k

theorem ofFn_lane_commandWord :
    (Vector.ofFn fun k : Fin 7 => lane (commandWord op len b0 b1 b2 b3 b4 b5 b6) k) =
      #v[b0, b1, b2, b3, b4, b5, b6] :=
  Vector.ext fun k hk => by
    rw [Vector.getElem_ofFn]
    exact lane_commandWord_bytes op len b0 b1 b2 b3 b4 b5 b6 ⟨k, hk⟩

theorem lanesClearFrom_commandWord (n : Nat) :
    lanesClearFrom (commandWord op len b0 b1 b2 b3 b4 b5 b6) n = true ↔
      LanesZeroFrom n #v[b0, b1, b2, b3, b4, b5, b6] := by
  rw [← ofFn_lane_commandWord op len]
  exact (lanesZeroFrom_ofFn_lane _ 0 n (Nat.le_refl 7)).symm

end Sys2Proof

namespace Sys2Proof

open Machine (MicroRow decodeMicro_of_microRow)

/-! ### What the decoder reads, opcode by opcode -/

/-- The commands whose word is the opcode alone (R83). -/
inductive BareRow : BitVec 4 → Instr → Prop
  | don : BareRow 5 .don
  | doff : BareRow 6 .doff
  | ackrc : BareRow 7 .ackrc
  | stat : BareRow 8 .stat

/-- What the decoder makes of a word whose opcode is not reserved: the test of its fixed fields (R83) and the
instruction that it is when the test holds. -/
inductive DecodeRow (w : CommandWord) : Bool → Instr → Prop
  | enq (hop : opField w = 1) : DecodeRow w (!zField w) (decodeEnq w)
  | wrdisp (hop : opField w = 2) : DecodeRow w (!zField w)
      (.wrdisp (lenField w) (lane w 0) (Vector.ofFn fun k : Fin 6 => lane w (k + 1)))
  | wrseg (hop : opField w = 3) : DecodeRow w (lenField w == 0 && !zField w && lanesClearFrom w 2)
      (.wrseg (lane w 0) (lane w 1))
  | bright (hop : opField w = 4) :
      DecodeRow w (lenField w == 0 && !zField w && (lane w 0).extractLsb' 3 5 == 0 && lanesClearFrom w 1)
        (.bright ((lane w 0).extractLsb' 0 3))
  | bare {i : Instr} (hrow : BareRow (opField w) i) :
      DecodeRow w (lenField w == 0 && !zField w && lanesClearFrom w 0) i

/-- Everything `decodeCommand` can be (R84 steps 1 and 2). -/
theorem decodeCommand_cases (w : CommandWord) :
    (∃ b i, DecodeRow w b i ∧ decodeCommand w = decodeIf b i) ∨
    ((opField w = 0 ∨ 9 ≤ (opField w).toNat) ∧ decodeCommand w = .error .reservedOpcode) := by
  have opcode {k : Nat} (hk : (opField w).toNat = k) : opField w = BitVec.ofNat 4 k := by
    rw [← hk, BitVec.ofNat_toNat, BitVec.setWidth_eq]
  have unlisted : ∀ op : BitVec 4, op.toNat ≠ 1 → op.toNat ≠ 2 → op.toNat ≠ 3 → op.toNat ≠ 4 → op.toNat ≠ 5 →
      op.toNat ≠ 6 → op.toNat ≠ 7 → op.toNat ≠ 8 → op = 0 ∨ 9 ≤ op.toNat := by decide
  unfold decodeCommand
  split
  · exact .inl ⟨_, _, .enq (opcode ‹_›), rfl⟩
  · exact .inl ⟨_, _, .wrdisp (opcode ‹_›), rfl⟩
  · exact .inl ⟨_, _, .wrseg (opcode ‹_›), rfl⟩
  · exact .inl ⟨_, _, .bright (opcode ‹_›), rfl⟩
  · exact .inl ⟨_, _, .bare (opcode ‹_› ▸ .don), rfl⟩
  · exact .inl ⟨_, _, .bare (opcode ‹_› ▸ .doff), rfl⟩
  · exact .inl ⟨_, _, .bare (opcode ‹_› ▸ .ackrc), rfl⟩
  · exact .inl ⟨_, _, .bare (opcode ‹_› ▸ .stat), rfl⟩
  · exact .inr ⟨unlisted _ ‹_› ‹_› ‹_› ‹_› ‹_› ‹_› ‹_› ‹_›, rfl⟩

theorem decodeIf_eq_ok {b : Bool} {i j : Instr} : decodeIf b i = .ok j ↔ b = true ∧ i = j := by
  cases b <;> simp [decodeIf]

/-! ### A word that decodes is the word of what it decodes to -/

/-- The word of a command that is its opcode alone. -/
theorem encode_of_bareRow {op : BitVec 4} {i : Instr} (h : BareRow op i) :
    encode i = .command (commandWord op 0 0 0 0 0 0 0 0) := by
  cases h <;> rfl

/-- Both spellings of an ENQ word have that word (R86). -/
theorem encode_decodeEnq {w : CommandWord} (hop : opField w = 1) (hz : zField w = false) :
    encode (decodeEnq w) = .command w := by
  unfold decodeEnq
  split
  · rename_i hone
    obtain ⟨hlen, hclear⟩ := hone
    exact congrArg Encoding.command (commandWord_of_fields hop hlen hz rfl (lane_eq_zero hclear)
      (lane_eq_zero hclear) (lane_eq_zero hclear) (lane_eq_zero hclear) (lane_eq_zero hclear) (lane_eq_zero hclear))
  · simp only [encode, Vector.getElem_ofFn]
    exact congrArg Encoding.command (commandWord_of_fields hop rfl hz rfl rfl rfl rfl rfl rfl rfl)

/-- When its fixed fields hold, no bit of the word is lost in its row. -/
theorem encode_of_decodeRow {w : CommandWord} {b : Bool} {i : Instr} (hrow : DecodeRow w b i) (hb : b = true) :
    encode i = .command w := by
  cases hrow with
  | enq hop => exact encode_decodeEnq hop (by simpa using hb)
  | wrdisp hop =>
    have hz : zField w = false := by simpa using hb
    simp only [encode, Vector.getElem_ofFn]
    exact congrArg Encoding.command (commandWord_of_fields hop rfl hz rfl rfl rfl rfl rfl rfl rfl)
  | wrseg hop =>
    obtain ⟨⟨hlen, hz⟩, hclear⟩ : (lenField w = 0 ∧ zField w = false) ∧ lanesClearFrom w 2 = true := by simpa using hb
    exact congrArg Encoding.command (commandWord_of_fields hop hlen hz rfl rfl (lane_eq_zero hclear)
      (lane_eq_zero hclear) (lane_eq_zero hclear) (lane_eq_zero hclear) (lane_eq_zero hclear))
  | bright hop =>
    obtain ⟨⟨⟨hlen, hz⟩, hhigh⟩, hclear⟩ : ((lenField w = 0 ∧ zField w = false) ∧
        (lane w 0).extractLsb' 3 5 = 0) ∧ lanesClearFrom w 1 = true := by simpa using hb
    have hlow : ∀ x : Byte, x.extractLsb' 3 5 = 0 → x = (x.extractLsb' 0 3).setWidth 8 := by decide
    exact congrArg Encoding.command (commandWord_of_fields hop hlen hz (hlow _ hhigh) (lane_eq_zero hclear)
      (lane_eq_zero hclear) (lane_eq_zero hclear) (lane_eq_zero hclear) (lane_eq_zero hclear) (lane_eq_zero hclear))
  | bare hbare =>
    obtain ⟨⟨hlen, hz⟩, hclear⟩ : (lenField w = 0 ∧ zField w = false) ∧ lanesClearFrom w 0 = true := by simpa using hb
    rw [encode_of_bareRow hbare]
    exact congrArg Encoding.command (commandWord_of_fields rfl hlen hz (lane_eq_zero hclear)
      (lane_eq_zero hclear) (lane_eq_zero hclear) (lane_eq_zero hclear) (lane_eq_zero hclear)
      (lane_eq_zero hclear) (lane_eq_zero hclear))

theorem encode_of_decodeCommand {w : CommandWord} {i : Instr} (h : decodeCommand w = .ok i) :
    encode i = .command w := by
  obtain ⟨b, j, hrow, hdec⟩ | ⟨_, herror⟩ := decodeCommand_cases w
  · obtain ⟨hb, rfl⟩ := decodeIf_eq_ok.mp (hdec.symm.trans h)
    exact encode_of_decodeRow hrow hb
  · exact nomatch herror.symm.trans h

/-! ### Micro-states -/

theorem phaseField_append_subField : ∀ u : MicroCode, phaseField u ++ subField u = u := by decide

/-- What the decoder reads from a micro-state is its row of R100. -/
theorem microRow_of_decodeMicro {u : MicroCode} {i : Instr} (h : decodeMicro u = .ok i) :
    MicroRow (phaseField u) (subField u) i := by
  have phase {k : Nat} (hk : (phaseField u).toNat = k) : phaseField u = BitVec.ofNat 3 k := by
    rw [← hk, BitVec.ofNat_toNat, BitVec.setWidth_eq]
  have sub {k : Nat} (hk : (subField u).toNat = k) : subField u = BitVec.ofNat 4 k := by
    rw [← hk, BitVec.ofNat_toNat, BitVec.setWidth_eq]
  have bitIndex : ∀ u : MicroCode, (subField u).toNat < 8 → subField u = (u.extractLsb' 0 3).setWidth 4 := by decide
  have row {p : BitVec 3} {k : BitVec 4} {j : Instr} (hrow : MicroRow p k j) (hp : phaseField u = p)
      (hk : subField u = k) (hj : Except.ok (ε := DecodeError) j = .ok i) : MicroRow (phaseField u) (subField u) i := by
    rw [hp, hk, ← Except.ok.inj hj]; exact hrow
  unfold decodeMicro at h
  split at h
  · exact row .uIdle (phase ‹_›) (sub ‹_›) h
  · exact row .uStart0 (phase ‹_›) (sub ‹_›) h
  · exact row .uStart1 (phase ‹_›) (sub ‹_›) h
  · exact row .uStart2 (phase ‹_›) (sub ‹_›) h
  · exact row .uWprep (phase ‹_›) (sub ‹_›) h
  · exact row .uWclkh (phase ‹_›) (sub ‹_›) h
  · split at h
    · exact row (.uWbit _) (phase ‹_›) (bitIndex u ‹_›) h
    · exact nomatch h
  · exact row .uAcks (phase ‹_›) (sub ‹_›) h
  · exact row .uAcke (phase ‹_›) (sub ‹_›) h
  · exact row .uStop0 (phase ‹_›) (sub ‹_›) h
  · exact row .uStop1 (phase ‹_›) (sub ‹_›) h
  · exact row .uStop2 (phase ‹_›) (sub ‹_›) h
  · exact row .uStop3 (phase ‹_›) (sub ‹_›) h
  · exact row .uDone (phase ‹_›) (sub ‹_›) h
  · exact nomatch h

theorem encode_of_microRow {p : BitVec 3} {k : BitVec 4} {i : Instr} (h : MicroRow p k i) :
    encode i = .micro (p ++ k) := by
  cases h with
  | uWbit k => revert k; decide
  | _ => rfl

theorem encode_of_decodeMicro {u : MicroCode} {i : Instr} (h : decodeMicro u = .ok i) : encode i = .micro u := by
  rw [encode_of_microRow (microRow_of_decodeMicro h), phaseField_append_subField]

/-- A micro-state that has no row is rejected by name (R147). -/
theorem decodeMicro_eq_error {u : MicroCode} {e : DecodeError} (h : decodeMicro u = .error e) :
    e = .reservedMicroState := by
  have hother : ∀ u : MicroCode, decodeMicro u ≠ .error .reservedOpcode ∧ decodeMicro u ≠ .error .reservedField := by
    decide
  obtain ⟨hop, hfield⟩ := hother u
  cases e with
  | reservedOpcode => exact absurd h hop
  | reservedField => exact absurd h hfield
  | reservedMicroState => rfl

theorem legalPosition_of_microRow {p : BitVec 3} {k : BitVec 4} {i : Instr} (h : MicroRow p k i) :
    Machine.LegalPosition p k := by
  cases h with
  | uWbit k => revert k; decide
  | _ => decide

/-! ### Decoding the word of an instruction -/

/-- An instruction's micro-state decodes to it. -/
theorem decode_encode_of_microRow {p : BitVec 3} {k : BitVec 4} {i : Instr} (h : MicroRow p k i) :
    decode (encode i) = .ok i := by
  rw [encode_of_microRow h]
  exact decodeMicro_of_microRow h

/-- The words of ENQ, `LEN` and lanes as they are, with the one-byte ones read as WRBYTE (log entry 14). -/
theorem decodeEnq_commandWord (len : BitVec 3) (b : Vector Byte 7) :
    decodeEnq (commandWord 1 len b[0] b[1] b[2] b[3] b[4] b[5] b[6]) = (Instr.enq len b).canonical := by
  have hb : #v[b[0], b[1], b[2], b[3], b[4], b[5], b[6]] = b :=
    Vector.ext fun k hk => by interval_cases k <;> rfl
  have hlane : lane (commandWord 1 len b[0] b[1] b[2] b[3] b[4] b[5] b[6]) 0 = b[0] := lane_commandWord 1 len b 0
  simp only [decodeEnq, Instr.canonical, lenField_commandWord, lanesClearFrom_commandWord, ofFn_lane_commandWord, hb,
    hlane]

/-- The fields of an encoded word that the decoder reads one by one. -/
theorem fields_commandWord (op : BitVec 4) (len : BitVec 3) (b0 b1 b2 b3 b4 b5 b6 : Byte) :
    opField (commandWord op len b0 b1 b2 b3 b4 b5 b6) = op ∧
    lenField (commandWord op len b0 b1 b2 b3 b4 b5 b6) = len ∧
    zField (commandWord op len b0 b1 b2 b3 b4 b5 b6) = false ∧
    lane (commandWord op len b0 b1 b2 b3 b4 b5 b6) 0 = b0 ∧
    lane (commandWord op len b0 b1 b2 b3 b4 b5 b6) 1 = b1 :=
  ⟨opField_commandWord .., lenField_commandWord .., zField_commandWord .., lane_commandWord_bytes (k := 0) ..,
    lane_commandWord_bytes (k := 1) ..⟩

/-- The lanes of a WRDISP word above the first are its segments. -/
theorem ofFn_segments_commandWord (op : BitVec 4) (len : BitVec 3) (a : Byte) (segs : Vector Byte 6) :
    (Vector.ofFn fun k : Fin 6 =>
      lane (commandWord op len a segs[0] segs[1] segs[2] segs[3] segs[4] segs[5]) (k + 1)) = segs := by
  refine Vector.ext fun k hk => ?_
  have hlane := lane_commandWord_bytes op len a segs[0] segs[1] segs[2] segs[3] segs[4] segs[5] ⟨k + 1, by omega⟩
  rw [Vector.getElem_ofFn]
  refine hlane.trans ?_
  interval_cases k <;> rfl

/-- Decoding the word of an instruction gives it back, for every operand value, well-formed or not. -/
theorem decode_encode (i : Instr) : decode (encode i) = .ok i.canonical := by
  cases i with
  | enq len b =>
    rw [← decodeEnq_commandWord]
    simp [encode, decode, decodeCommand, decodeIf, fields_commandWord]
  | wrdisp c a segs =>
    have hdec (w : CommandWord) (hop : opField w = 2) (hz : zField w = false) : decodeCommand w =
        .ok (.wrdisp (lenField w) (lane w 0) (Vector.ofFn fun k : Fin 6 => lane w (k + 1))) := by
      simp [decodeCommand, decodeIf, hop, hz]
    refine (hdec _ (opField_commandWord ..) (zField_commandWord ..)).trans ?_
    rw [ofFn_segments_commandWord]
    simp only [fields_commandWord, Instr.canonical]
  | wrseg | wrbyte =>
    simp [encode, decode, decodeCommand, decodeEnq, decodeIf, fields_commandWord, lanesClearFrom_commandWord,
      LanesZeroFrom, Fin.forall_fin_succ, Instr.canonical]
  | bright lvl =>
    have hlevel : ∀ x : BitVec 3, (x.setWidth 8).extractLsb' 0 3 = x ∧ (x.setWidth 8).extractLsb' 3 5 = 0 := by decide
    simp [encode, decode, decodeCommand, decodeIf, fields_commandWord, lanesClearFrom_commandWord, LanesZeroFrom,
      Fin.forall_fin_succ, Instr.canonical, hlevel]
  | don | doff | ackrc | stat => rfl
  | uWbit k => exact decode_encode_of_microRow (.uWbit k)
  | uIdle | uStart0 | uStart1 | uStart2 | uWprep | uWclkh | uAcks | uAcke | uStop0 | uStop1 | uStop2 | uStop3
  | uDone => rfl

/-- A line of R87 that is read back as itself holds in both directions when its word is the listed one. -/
theorem encode_and_decodeCommand {w : CommandWord} {i : Instr} (hi : i.canonical = i) (h : encode i = .command w) :
    encode i = .command w ∧ decodeCommand w = .ok i := by
  have hdec := decode_encode i
  rw [h, hi] at hdec
  exact ⟨h, hdec⟩

end Sys2Proof

section
open Sys2Proof Sys2Proof.Machine

/-- Settles O1: every instruction is read back from its word, so the well-formed ones are. -/
theorem encodedInstructionDecodesBack : Obligations.EncodedInstructionDecodesBack :=
  fun i _ => decode_encode i

/-- Settles O2: the word is put together again from the fields that the decoder read and those that it tested. -/
theorem decodedWordEncodesBack : Obligations.DecodedWordEncodesBack :=
  ⟨fun _ _ => encode_of_decodeCommand, fun _ _ => encode_of_decodeMicro⟩

/-- Settles O4: each row of R100 decodes to its micro-step, and what decodes has a row, so its position is legal. -/
theorem microStateTable : Obligations.MicroStateTable := by
  refine ⟨rfl, rfl, rfl, rfl, ?bit, rfl, rfl, rfl, rfl, rfl, rfl, rfl, rfl, rfl, ?unlisted, ?fields⟩
  case bit => exact fun k => decode_encode_of_microRow (.uWbit k)
  case unlisted =>
    intro u hillegal
    cases hdec : decodeMicro u with
    | ok i => exact absurd (legalPosition_of_microRow (microRow_of_decodeMicro hdec)) hillegal
    | error e => rw [decodeMicro_eq_error hdec]
  case fields => exact fun s => ⟨phaseField_microState s, subField_microState s⟩

/-- Settles O3: each line's word is computed, and by O1 it decodes to its line. -/
theorem workedEncodingsOfTheSpec : Obligations.WorkedEncodingsOfTheSpec := by
  refine ⟨⟨rfl, rfl, rfl⟩, ?_, ?_, ?_, ?_, ?_, ?_, ?_, ?_, ?_, ?_⟩
  all_goals exact encode_and_decodeCommand rfl rfl

end

namespace Sys2Proof.Machine

variable {w : CommandWord} {s t : State}

/-! ### The masks of the opcode table (R83) -/

theorem and_eq_zero_iff_bits (w m : CommandWord) :
    w &&& m = 0 ↔ ∀ i, m.getLsbD i = true → w.getLsbD i = false :=
  BitVec.zero_iff_eq_false.trans (forall_congr' fun i => by
    rw [BitVec.getLsbD_and]
    cases m.getLsbD i <;> simp)

/-- `LEN` and `Z` are the bits 4 to 7. -/
theorem lenField_zField_eq_zero_iff (w : CommandWord) :
    lenField w = 0 ∧ zField w = false ↔ ∀ i, 4 ≤ i → i < 8 → w.getLsbD i = false := by
  have hlen : lenField w = 0 ↔ ∀ i, i < 3 → w.getLsbD (4 + i) = false :=
    BitVec.zero_iff_eq_false.trans (by simp [lenField])
  rw [hlen]
  constructor
  · rintro ⟨hlow, h7⟩ i hi hi8
    have hplace : i = 7 ∨ i = 4 + (i - 4) ∧ i - 4 < 3 := by omega
    obtain rfl | ⟨hadd, hlt⟩ := hplace
    · exact h7
    · rw [hadd]; exact hlow _ hlt
  · exact fun h => ⟨fun i hi => h _ (by omega) (by omega), h 7 (by decide) (by decide)⟩

/-- A mask of `LEN`, `Z` and all bits from `k` on. -/
theorem and_mask_eq_zero_iff {m : CommandWord} (k : Nat)
    (hm : ∀ i < 64, m.getLsbD i = decide (4 ≤ i ∧ i < 8 ∨ k ≤ i)) :
    w &&& m = 0 ↔ (lenField w = 0 ∧ zField w = false) ∧ w >>> k = 0 := by
  rw [and_eq_zero_iff_bits, lenField_zField_eq_zero_iff, ushiftRight_eq_zero_iff]
  constructor
  · intro h
    have hclear (i : Nat) (hi : 4 ≤ i ∧ i < 8 ∨ k ≤ i) : w.getLsbD i = false := by
      by_cases hlt : i < 64
      · exact h i ((hm i hlt).trans (decide_eq_true hi))
      · exact BitVec.getLsbD_of_ge _ _ (Nat.not_lt.mp hlt)
    exact ⟨fun i hi hi8 => hclear i (.inl ⟨hi, hi8⟩), fun i hi => hclear i (.inr hi)⟩
  · rintro ⟨hlow, hhigh⟩ i hbit
    obtain ⟨hi, hi8⟩ | hi := of_decide_eq_true ((hm i (BitVec.lt_of_getLsbD hbit)).symm.trans hbit)
    · exact hlow i hi hi8
    · exact hhigh i hi

/-- The bits of `B0` above `lvl` and the lanes above `B0` are all the bits from 11 on. -/
theorem ushiftRight_eleven_eq_zero_iff (w : CommandWord) :
    w >>> 11 = 0 ↔ (lane w 0).extractLsb' 3 5 = 0 ∧ lanesClearFrom w 1 = true := by
  have hlane : (lane w 0).extractLsb' 3 5 = 0 ↔ ∀ i, i < 5 → w.getLsbD (11 + i) = false := by
    refine BitVec.zero_iff_eq_false.trans (forall_congr' fun i => ?_)
    have hplace : 8 * 0 + 8 + (3 + i) = 11 + i := by omega
    have hin : i < 5 → 3 + i < 8 := by omega
    rw [BitVec.getLsbD_extractLsb', lane_getLsbD, hplace]
    by_cases hi : i < 5 <;> simp [hi, hin]
  rw [ushiftRight_eq_zero_iff, hlane, lanesClearFrom_iff_bits]
  constructor
  · exact fun h => ⟨fun i _ => h _ (Nat.le_add_right 11 i), fun i hi => h i (by omega)⟩
  · rintro ⟨hlow, hhigh⟩ i hi
    by_cases h16 : i < 16
    · rw [← Nat.add_sub_cancel' hi]
      exact hlow _ (by omega)
    · exact hhigh i (by omega)

/-! ### Reserved bits, opcode by opcode -/

theorem ne_zero_eq_not {x : CommandWord} {b : Bool} (h : x = 0 ↔ b = true) : (x != 0) = !b := by
  rw [bne, Bool.eq_iff_iff.mpr (beq_iff_eq.trans h)]

theorem reservedBitSet_enq (hop : opField w = 1) :
    reservedBitSet w = (zField w || !lanesClearFrom w (lenField w).toNat) := by
  have hop' : w.extractLsb' 0 4 = 1 := hop
  simp only [reservedBitSet, hop']
  rfl

/-- With the segments in use counted from `B1`, one lane more is in use than `LEN` says. -/
theorem reservedBitSet_wrdisp (hop : opField w = 2) :
    reservedBitSet w = (zField w || !lanesClearFrom w ((lenField w).toNat + 1)) := by
  have hop' : w.extractLsb' 0 4 = 2 := hop
  simp only [reservedBitSet, hop']
  rfl

theorem reservedBitSet_wrseg (hop : opField w = 3) :
    reservedBitSet w = !(lenField w == 0 && !zField w && lanesClearFrom w 2) := by
  have hop' : w.extractLsb' 0 4 = 3 := hop
  have hmask := and_mask_eq_zero_iff (w := w) (m := 0xFFFFFFFFFF0000F0) 24 (by decide)
  simp only [reservedBitSet, hop']
  exact ne_zero_eq_not (by simpa [lanesClearFrom] using hmask)

theorem reservedBitSet_bright (hop : opField w = 4) : reservedBitSet w =
    !(lenField w == 0 && !zField w && (lane w 0).extractLsb' 3 5 == 0 && lanesClearFrom w 1) := by
  have hop' : w.extractLsb' 0 4 = 4 := hop
  have hmask := and_mask_eq_zero_iff (w := w) (m := 0xFFFFFFFFFFFFF8F0) 11 (by decide)
  rw [ushiftRight_eleven_eq_zero_iff, ← and_assoc] at hmask
  simp only [reservedBitSet, hop']
  exact ne_zero_eq_not (by simpa using hmask)

theorem reservedBitSet_bare {i : Instr} (hrow : BareRow (opField w) i) :
    reservedBitSet w = !(lenField w == 0 && !zField w && lanesClearFrom w 0) := by
  have hmask := and_mask_eq_zero_iff (w := w) (m := 0xFFFFFFFFFFFFFFF0) 8 (by decide)
  have hbits : reservedBitSet w = (w &&& 0xFFFFFFFFFFFFFFF0 != 0) := by
    generalize hop : opField w = op at hrow
    have hop' : w.extractLsb' 0 4 = op := hop
    cases hrow <;> simp only [reservedBitSet, hop'] <;> rfl
  rw [hbits]
  exact ne_zero_eq_not (by simpa [lanesClearFrom] using hmask)

/-! ### ENQ, WRBYTE and WRDISP as they are decoded -/

theorem lanesZeroFrom_iff {m : Nat} (n : Nat) (v : Vector Byte m) : lanesZeroFrom n v = true ↔ LanesZeroFrom n v := by
  simp only [lanesZeroFrom, List.all_eq_true, beq_iff_eq, List.mem_drop_iff_getElem]
  constructor
  · intro h k hk
    exact h _ ⟨k - n, by simp; omega, by simp [Nat.add_sub_cancel' hk]⟩
  · rintro h x ⟨i, hi, rfl⟩
    have hlt : n + i < m := by simpa [Nat.add_comm] using hi
    simpa using h ⟨n + i, hlt⟩ (Nat.le_add_right n i)

/-- The operand check of ENQ is the check of the lanes above those in use. -/
theorem lanesZeroFrom_enq (w : CommandWord) (n : Nat) :
    lanesZeroFrom n (Vector.ofFn fun k : Fin 7 => lane w k) = lanesClearFrom w n :=
  Bool.eq_iff_iff.mpr ((lanesZeroFrom_iff n _).trans (lanesZeroFrom_ofFn_lane w 0 n (by decide)))

/-- So is that of WRDISP, whose segments begin at `B1`. -/
theorem lanesZeroFrom_wrdisp (w : CommandWord) (n : Nat) :
    lanesZeroFrom n (Vector.ofFn fun k : Fin 6 => lane w (k + 1)) = lanesClearFrom w (n + 1) :=
  Bool.eq_iff_iff.mpr ((lanesZeroFrom_iff n _).trans (lanesZeroFrom_ofFn_lane w 1 n (by decide)))

/-- WRBYTE b means `ENQ b` (R86). -/
theorem exec_wrbyte (b : Byte) (s : State) : exec (.wrbyte b) s = exec (.enq 1 #v[b, 0, 0, 0, 0, 0, 0]) s := rfl

/-- An ENQ word means ENQ with its lanes, whichever of its two spellings it is read back as (log entry 14). -/
theorem exec_decodeEnq (w : CommandWord) (s : State) :
    exec (decodeEnq w) s = execEnq (lenField w) (Vector.ofFn fun k : Fin 7 => lane w k) s := by
  unfold decodeEnq
  split
  · rename_i hone
    obtain ⟨hlen, hclear⟩ := hone
    have hlanes : (Vector.ofFn fun k : Fin 7 => lane w k) = #v[lane w 0, 0, 0, 0, 0, 0, 0] := by
      refine Vector.ext fun k hk => ?_
      rw [Vector.getElem_ofFn]
      cases k with
      | zero => rfl
      | succ k =>
        have hk6 : k < 6 := Nat.lt_of_succ_lt_succ hk
        refine (lane_eq_zero hclear (Nat.le_add_left 1 k)).trans ?_
        interval_cases k <;> rfl
    rw [exec_wrbyte, hlen, hlanes]
    rfl
  · rfl

/-! ### The order of the checks (R84) -/

/-- What a command transaction can answer, check by check in the order of R84: an illegal word, an illegal length, the
frames handed to `SUBMIT`, or, for the two commands without frames, one response `OK`. -/
inductive CheckedAnswer (w : CommandWord) (s : State) : Answer → Prop
  | illegal (hbits : (reservedOp w || reservedBitSet w) = true) : CheckedAnswer w s (.next (answered s 3))
  | length (hbits : (reservedOp w || reservedBitSet w) = false) (hlen : illegalLength w = true) :
      CheckedAnswer w s (.next (answered s 2))
  | frames (hbits : (reservedOp w || reservedBitSet w) = false) (hlen : illegalLength w = false) {fs : Batch}
      (hsize : framesAsked w = fs.size) : CheckedAnswer w s (submit fs s)
  | read (hbits : (reservedOp w || reservedBitSet w) = false) (hlen : illegalLength w = false)
      (hnone : framesAsked w = 0) {t : State} {r : ResponseWord} (hresp : t.responses = s.responses ++ [r])
      (hcode : codeOf r = 0) : CheckedAnswer w s (.next t)

/-- The two checks of ENQ and WRDISP that depend on `LEN`, then `SUBMIT` (R171, R172). -/
theorem checkedAnswer_checkedSubmit {p q : Prop} [Decidable p] [Decidable q] {fs : Batch}
    (hop : reservedOp w = false) (hp : reservedBitSet w = true ↔ p) (hq : illegalLength w = true ↔ q)
    (hsize : framesAsked w = fs.size) :
    CheckedAnswer w s
      (if p then .next (s.raise .errIllegal) else if q then .next (s.raise .errLen) else submit fs s) := by
  have hbits (h : ¬ p) : (reservedOp w || reservedBitSet w) = false := by simpa [hop, ← hp] using h
  split_ifs with h1 h2
  · exact .illegal (by simp [hp.mpr h1])
  · exact .length (hbits h1) (hq.mpr h2)
  · exact .frames (hbits h1) (by simpa [← hq] using h2) hsize

/-- The opcode alone says what the checks of opcode and length find. -/
theorem opcode_checks {op : BitVec 4} (hop : opField w = op) :
    reservedOp w = (op == 0 || 9 ≤ op.toNat) ∧
    illegalLength w = (op == 1 && lenField w == 0 || op == 2 && lenField w == 7) := by
  subst hop
  exact ⟨rfl, rfl⟩

theorem codeOf_responseWord (c : RspCode) (res : Bool) (data : BitVec 29) : codeOf (responseWord c res data) = c.bits :=
  BitVec.eq_of_getLsbD_eq fun i hi => by
    rw [codeOf, BitVec.getLsbD_extractLsb', Nat.zero_add, responseWord, BitVec.getLsbD_append]
    simp [hi]

/-- The opcodes 3 to 8 have no length to check: a word of theirs is legal when its fixed fields hold. -/
theorem legal_of_fixedFields {b : Bool} {op : BitVec 4} (hop : opField w = op) (hlisted : 3 ≤ op ∧ op ≤ 8)
    (hbits : reservedBitSet w = !b) (hb : b = true) :
    (reservedOp w || reservedBitSet w) = false ∧ illegalLength w = false := by
  have hchecks : ∀ op : BitVec 4, 3 ≤ op ∧ op ≤ 8 →
      (op == 0 || 9 ≤ op.toNat) = false ∧ (op == 1) = false ∧ (op == 2) = false := by decide
  obtain ⟨hres, hlen⟩ := opcode_checks hop
  obtain ⟨hcode, hone, htwo⟩ := hchecks op hlisted
  exact ⟨by rw [hres, hcode, hbits, hb]; rfl, by rw [hlen, hone, htwo]; rfl⟩

/-- The meaning of a word whose fixed fields hold answers as its further checks say. -/
theorem exec_checkedAnswer {b : Bool} {i : Instr} (hrow : DecodeRow w b i) (hb : b = true) (s : State) :
    CheckedAnswer w s (exec i s) := by
  cases hrow with
  | enq hop =>
    have hz : zField w = false := by simpa using hb
    obtain ⟨hres, hlen⟩ := opcode_checks hop
    rw [exec_decodeEnq]
    refine checkedAnswer_checkedSubmit hres ?_ (by simp [hlen]) (framesAsked_eq_one hop)
    rw [reservedBitSet_enq hop, hz, lanesZeroFrom_enq, Bool.false_or]
  | wrdisp hop =>
    have hz : zField w = false := by simpa using hb
    obtain ⟨hres, hlen⟩ := opcode_checks hop
    refine checkedAnswer_checkedSubmit hres ?_ (by simp [hlen]) (framesAsked_eq_two hop (by decide))
    rw [reservedBitSet_wrdisp hop, hz, lanesZeroFrom_wrdisp, Bool.false_or]
  | wrseg hop =>
    obtain ⟨hbits, hlen⟩ := legal_of_fixedFields hop (by decide) (reservedBitSet_wrseg hop) hb
    exact .frames hbits hlen (framesAsked_eq_two hop (by decide))
  | bright hop =>
    obtain ⟨hbits, hlen⟩ := legal_of_fixedFields hop (by decide) (reservedBitSet_bright hop) hb
    exact .frames hbits hlen (framesAsked_eq_two hop (by decide))
  | bare hbare =>
    have hbits := reservedBitSet_bare hbare
    generalize hop : opField w = op at hbare
    have hop' : w.extractLsb' 0 4 = op := hop
    cases hbare with
    | don | doff =>
      obtain ⟨hbits, hlen⟩ := legal_of_fixedFields hop (by decide) hbits hb
      exact .frames hbits hlen (framesAsked_eq_two hop (by decide))
    | ackrc | stat =>
      obtain ⟨hbits, hlen⟩ := legal_of_fixedFields hop (by decide) hbits hb
      exact .read hbits hlen (by simp [framesAsked, hop']) rfl (codeOf_responseWord ..)

/-- When the test of the fixed fields fails, a bit that R83 marks `0` is set. -/
theorem reservedBitSet_of_decodeRow {b : Bool} {i : Instr} (hrow : DecodeRow w b i) (hb : b = false) :
    reservedBitSet w = true := by
  cases hrow with
  | enq hop => rw [reservedBitSet_enq hop, show zField w = true by simpa using hb, Bool.true_or]
  | wrdisp hop => rw [reservedBitSet_wrdisp hop, show zField w = true by simpa using hb, Bool.true_or]
  | wrseg hop => rw [reservedBitSet_wrseg hop, hb]; rfl
  | bright hop => rw [reservedBitSet_bright hop, hb]; rfl
  | bare hbare => rw [reservedBitSet_bare hbare, hb]; rfl

/-- Every command transaction answers what the checks of R84, in their order, say. -/
theorem commandTransaction_checkedAnswer (w : CommandWord) (s : State) :
    CheckedAnswer w s (commandTransaction w s) := by
  obtain ⟨b, i, hrow, hdec⟩ | ⟨hop, hdec⟩ := decodeCommand_cases w
  · cases hb : b with
    | false =>
      have hill : commandTransaction w s = .next (answered s 3) := by
        rw [commandTransaction, hdec, hb]; rfl
      rw [hill]
      exact .illegal (by rw [reservedBitSet_of_decodeRow hrow hb, Bool.or_true])
    | true =>
      have hexec : commandTransaction w s = exec i s := by
        rw [commandTransaction, hdec, hb]; rfl
      rw [hexec]
      exact exec_checkedAnswer hrow hb s
  · have hill : commandTransaction w s = .next (answered s 3) := by
      rw [commandTransaction, hdec]; rfl
    obtain ⟨hres, _⟩ := opcode_checks (w := w) rfl
    rw [hill]
    exact .illegal (by simpa [hres] using .inl hop)

/-- The response code is that of the first failing check (R84, R90). -/
theorem commandTransaction_expectedCode (w : CommandWord) (hok : QueueOk s) :
    ∃ t r, commandTransaction w s = .next t ∧ t.responses = s.responses ++ [r] ∧
      codeOf r = (expectedCode w s).bits ∧ (codeOf r ≠ 0 → r.extractLsb' 2 30 = 0) := by
  have hchecked := commandTransaction_checkedAnswer w s
  generalize commandTransaction w s = a at hchecked
  cases hchecked with
  | illegal hbits =>
    have hcode : expectedCode w s = .errIllegal := by simp only [expectedCode, hbits, if_true]
    exact ⟨_, 3, rfl, rfl, hcode ▸ rfl, fun _ => rfl⟩
  | length hbits hlen =>
    have hcode : expectedCode w s = .errLen := by simp [expectedCode, hbits, hlen]
    exact ⟨_, 2, rfl, rfl, hcode ▸ rfl, fun _ => rfl⟩
  | @frames hbits hlen fs hsize =>
    obtain ⟨hfull, hsub⟩ | ⟨hroom, q, head, hsub⟩ := submit_cases hok fs
    · have hcode : expectedCode w s = .errFull := by simp [expectedCode, hbits, hlen, hsize, hfull]
      exact ⟨_, 1, hsub, rfl, hcode ▸ rfl, fun _ => rfl⟩
    · have hcode : expectedCode w s = .ok := by simp [expectedCode, hbits, hlen, hsize, Nat.not_lt.mpr hroom]
      exact ⟨_, 0, hsub, rfl, hcode ▸ rfl, fun _ => rfl⟩
  | read hbits hlen hnone hresp hzero =>
    have hcode : expectedCode w s = .ok := by simp [expectedCode, hbits, hlen, hnone]
    exact ⟨_, _, rfl, hresp, hcode ▸ hzero, fun hne => absurd hzero hne⟩

/-- An illegal word is answered with `ERR_ILLEGAL` and nothing else, in every state (R85). -/
theorem commandTransaction_illegal (s : State) (hbits : (reservedOp w || reservedBitSet w) = true) :
    commandTransaction w s = .next (answered s 3) := by
  have hchecked := commandTransaction_checkedAnswer w s
  generalize commandTransaction w s = a at hchecked
  cases hchecked with
  | illegal => rfl
  | length hlegal | frames hlegal | read hlegal => exact nomatch hlegal.symm.trans hbits

/-- The code `ERR_ILLEGAL` is for illegal words alone. -/
theorem expectedCode_bits_ne_three (s : State) (hbits : (reservedOp w || reservedBitSet w) = false) :
    (expectedCode w s).bits ≠ 3 := by
  rw [expectedCode, if_neg (Bool.not_eq_true _ ▸ hbits)]
  split_ifs <;> decide

end Sys2Proof.Machine

section
open Sys2Proof Sys2Proof.Machine

/-- Settles O6: the answer of every command transaction is that of the checks in the order of R84. -/
theorem firstFailingCheckGivesTheCode : Obligations.FirstFailingCheckGivesTheCode :=
  fun w _ hok => commandTransaction_expectedCode w hok

/-- Settles O5: an illegal word fails the first checks, and a legal one gets the code of a later check or `OK`. -/
theorem illegalWordsAreRejected : Obligations.IllegalWordsAreRejected := by
  refine ⟨fun w s hbits => commandTransaction_illegal s (Bool.or_eq_true_iff.mpr hbits), ?legal, rfl⟩
  case legal =>
    intro w s hok hop hbits
    obtain ⟨t, r, hnext, hresp, hcode, _⟩ := commandTransaction_expectedCode w hok
    refine ⟨t, r, hnext, hresp, ?_⟩
    rw [hcode]
    exact expectedCode_bits_ne_three s (by rw [hop, hbits]; rfl)

/-- Settles O14: both spellings have one word and one meaning, whose frame goes in when there is room. -/
theorem wrbyteIsEnqOfOneByte : Obligations.WrbyteIsEnqOfOneByte :=
  fun b s => ⟨rfl, exec_wrbyte b s, fun hok hroom => submit_one_free hok hroom (Frame.of [b])⟩

end

namespace Sys2Proof.Machine

variable {s t : State}

/-! ### The contents of the queue -/

/-- The frames of a batch, in the order they are enqueued. -/
def Batch.frames : Batch → List Frame
  | .one f => [f]
  | .two f1 f2 => [f1, f2]

@[simp] theorem Batch.length_frames (fs : Batch) : fs.frames.length = fs.size := by cases fs <;> rfl

@[simp] theorem length_contents (s : State) : (contents s).length = count s := by simp [contents]

/-- The contents are read from the slot file, the two indices and `N`. -/
theorem contents_congr (hp : t.params = s.params) (hh : t.head = s.head) (ht : t.tail = s.tail) (hq : t.q = s.q) :
    contents t = contents s := by
  simp only [contents, slotAt, count_congr hp hh ht, hp, ht, hq]

/-- `Q_ENQ` puts its frame behind the queued ones, whose slots it leaves alone (R113, R117). -/
theorem contents_pushed (h : QueueOk s) (hfull : isFull s = false) (f : Frame) :
    contents (s.pushed f) = contents s ++ [f] := by
  have hqueued : ∀ j ∈ List.range (count s),
      (slotAt (s.pushed f) j).getD (Frame.of []) = (slotAt s j).getD (Frame.of []) := fun j hj =>
    congrArg (Option.getD · (Frame.of [])) (pushed_queuedKept h f j (List.mem_range.mp hj))
  have hnew : slotAt (s.pushed f) (count s) = some f := by
    show (s.q.write s.head f).read ((s.tail + count s) % s.params.n) = some f
    rw [place_count h, Memory.read_write_same]
  rw [contents, count_pushed h hfull, List.range_succ, List.map_append, List.map_congr_left hqueued, List.map_singleton,
    hnew]
  rfl

theorem contents_pushed_pushed (h : QueueOk s) (hroom : 2 ≤ free s) (f1 f2 : Frame) :
    contents ((s.pushed f1).pushed f2) = contents s ++ [f1, f2] := by
  rw [contents_pushed (queueOk_pushed h f1) (isFull_pushed h hroom f1),
    contents_pushed h (isFull_eq_false_of_free h (by omega)), List.append_assoc, List.singleton_append]

/-- `Q_ENQ` and `Q_ENQ2` append their frames when these go in (R113, R114, R117). -/
theorem contents_enqueue (h : QueueOk s) {fs : Batch} (henq : fs.enqueue s = .ok (true, t)) :
    contents t = contents s ++ fs.frames := by
  cases fs with
  | one f =>
    obtain ⟨hfalse, _⟩ | ⟨_, hfull, _, rfl⟩ := qEnq_cases henq
    · exact nomatch hfalse
    · exact contents_pushed h hfull f
  | two f1 f2 =>
    obtain ⟨hfalse, _⟩ | ⟨_, hroom, _, _, rfl⟩ := qEnq2_cases henq
    · exact nomatch hfalse
    · exact contents_pushed_pushed h hroom f1 f2

/-- Moving `TAIL` on drops the first frame and moves the others one place forward (R115, R117). -/
theorem contents_dequeued (h : QueueOk s) (hne : isEmpty s = false) :
    contents s = (slotAt s 0).getD (Frame.of []) :: contents { s with tail := inc s.params.n s.tail } := by
  have hcount : count s = count { s with tail := inc s.params.n s.tail } + 1 := count_deq h hne rfl rfl rfl
  have hplace (j : Nat) : slotAt s (j + 1) = slotAt { s with tail := inc s.params.n s.tail } j :=
    congrArg s.q.read (place_inc_tail h j).symm
  rw [contents, hcount, List.range_succ_eq_map, List.map_cons, List.map_map]
  simp only [Function.comp_def, Nat.succ_eq_add_one, hplace]
  rfl

/-- `Q_DEQ` answers the first queued frame: under the invariant its slot has been written (R36 item 7). -/
theorem contents_qDeq (h : BlockInv s) {f : Frame} (hdeq : qDeq s = .ok (some f, t)) :
    contents s = f :: contents t := by
  obtain ⟨hnone, _⟩ | ⟨hne, htail, hf, rfl⟩ := qDeq_cases hdeq
  · exact nomatch hnone
  · obtain ⟨g, hread, _⟩ := h.queueInv.oldest hne
    have hfirst : slotAt s 0 = some g := by rw [slotAt, Nat.add_zero, Nat.mod_eq_of_lt htail, hread]
    have hfg : f = g := by simpa [hread] using hf
    rw [contents_dequeued h.queueOk hne, hfirst, hfg]
    rfl

end Sys2Proof.Machine

section
open Sys2Proof Sys2Proof.Machine

/-- Settles O47: an enqueue writes behind the queued frames and leaves their slots alone, a dequeue moves every place
one forward. -/
theorem queueIsFirstInFirstOut : Obligations.QueueIsFirstInFirstOut :=
  ⟨fun _ _ f h henq => contents_enqueue (fs := .one f) h henq,
    fun _ _ f1 f2 h henq => contents_enqueue (fs := .two f1 f2) h henq,
    fun _ _ _ h hdeq => contents_qDeq h hdeq⟩

end

namespace Sys2Proof.Machine

variable {w : CommandWord} {s t : State}

/-! ### `COUNT` after a command -/

/-- `SUBMIT` with room appends its frames (R170). -/
theorem contents_submit (h : QueueOk s) {fs : Batch} (hroom : fs.size ≤ free s) (hsub : submit fs s = .next t) :
    contents t = contents s ++ fs.frames := by
  cases fs with
  | one f =>
    rw [submit_one_free h hroom] at hsub
    obtain rfl := Host.Outcome.next.inj hsub
    exact contents_pushed h (isFull_eq_false_of_free h hroom) f
  | two f1 f2 =>
    rw [submit_two_free h hroom] at hsub
    obtain rfl := Host.Outcome.next.inj hsub
    exact contents_pushed_pushed h hroom f1 f2

/-- A command is accepted when it passes all checks of R84. -/
theorem expectedCode_eq_ok_iff : expectedCode w s = .ok ↔
    (reservedOp w || reservedBitSet w) = false ∧ illegalLength w = false ∧ framesAsked w ≤ free s := by
  unfold expectedCode
  split_ifs with hbits hlen hfull
  · exact iff_of_false nofun fun ⟨hb, _, _⟩ => nomatch hb.symm.trans hbits
  · exact iff_of_false nofun fun ⟨_, hl, _⟩ => nomatch hl.symm.trans hlen
  · exact iff_of_false nofun fun ⟨_, _, hroom⟩ => Nat.not_lt.mpr hroom hfull
  · exact iff_of_true rfl ⟨Bool.not_eq_true _ ▸ hbits, Bool.not_eq_true _ ▸ hlen, Nat.not_lt.mp hfull⟩

theorem count_commandTransaction (h : QueueOk s) (hcmd : commandTransaction w s = .next t) :
    count t = count s + (if expectedCode w s = .ok then framesAsked w else 0) := by
  have hframe := commandTransaction_commandFrame hcmd
  have hchecked := commandTransaction_checkedAnswer w s
  rw [hcmd] at hchecked
  generalize hans : Host.Outcome.next t = a at hchecked
  cases hchecked with
  | illegal hbits =>
    obtain rfl := Host.Outcome.next.inj hans
    rw [if_neg (by simp [expectedCode_eq_ok_iff, hbits])]
    rfl
  | length _ hlen =>
    obtain rfl := Host.Outcome.next.inj hans
    rw [if_neg (by simp [expectedCode_eq_ok_iff, hlen])]
    rfl
  | @frames hbits hlen fs hsize =>
    by_cases hroom : fs.size ≤ free s
    · have hcount := congrArg List.length (contents_submit h hroom hans.symm)
      rw [if_pos (expectedCode_eq_ok_iff.mpr ⟨hbits, hlen, hsize ▸ hroom⟩), hsize]
      simpa using hcount
    · obtain rfl := Host.Outcome.next.inj (hans.trans (submit_full (Nat.not_le.mp hroom)))
      rw [if_neg (by simp [expectedCode_eq_ok_iff, hsize, hroom])]
      rfl
  | read _ _ hnone =>
    obtain ⟨_, hhead, _⟩ := hframe.queue hnone
    rw [hnone, ite_self]
    exact count_congr hframe.params hhead hframe.tail

/-! ### `COUNT` after a tick -/

theorem isMicroStep_of_microRow {p : BitVec 3} {k : BitVec 4} {i : Instr} (h : MicroRow p k i) :
    isMicroStep i = true := by
  cases h <;> rfl

/-- The row of U_IDLE is the one in the phase `IDLE` (R100). -/
theorem eq_uIdle_iff_of_microRow {p : BitVec 3} {k : BitVec 4} {i : Instr} (h : MicroRow p k i) :
    i = .uIdle ↔ p = IDLE ∧ k = 0 := by
  cases h <;> simp

/-- A micro-step that is not U_IDLE leaves both indices alone. -/
theorem MicroFrame.count_eq {i : Instr} (h : MicroFrame i s t) (hi : i ≠ .uIdle) : count t = count s := by
  obtain ⟨htail, _, _⟩ := h.frame hi
  exact count_congr h.params h.head htail

theorem count_execUIdle (h : QueueOk s) (hexec : execUIdle s = .next t) :
    count s = count t + (if isEmpty s = false then 1 else 0) := by
  obtain ⟨hempty, rfl⟩ | ⟨hne, _, f, _, rfl⟩ := execUIdle_cases hexec
  · rw [if_neg (by simp [hempty])]
    rfl
  · rw [if_pos hne]
    exact count_deq h hne rfl rfl rfl

theorem count_tickTransaction (h : QueueOk s) {a : Bool} (htick : tickTransaction a s = .next t) :
    count s = count t +
      (if s.timerOn = true ∧ s.phase = IDLE ∧ s.sub = 0 ∧ isEmpty s = false then 1 else 0) := by
  obtain ⟨hoff, hdrop⟩ | ⟨hon, i, hdec, hexec⟩ | ⟨_, _, _, hfault⟩ := tickTransaction_cases a s
  · obtain rfl := Host.Outcome.next.inj (hdrop.symm.trans htick)
    rw [if_neg (by simp [hoff])]
    rfl
  · have hrow := microRow_of_decodeMicro hdec
    rw [phaseField_microState, subField_microState] at hrow
    have hidle := eq_uIdle_iff_of_microRow hrow
    rw [htick] at hexec
    by_cases hi : i = .uIdle
    · obtain ⟨hphase, hsub⟩ := hidle.mp hi
      subst hi
      simp only [hon, hphase, hsub, true_and]
      exact count_execUIdle (s := { s with dioIn := a }) h hexec.symm
    · rw [if_neg fun ⟨_, hphase, hsub, _⟩ => hi (hidle.mpr ⟨hphase, hsub⟩)]
      exact ((exec_microFrame (isMicroStep_of_microRow hrow) hexec.symm).count_eq hi).symm
  · exact nomatch hfault.symm.trans htick

theorem count_resetTransaction (s : State) : count (resetTransaction s) = 0 := by simp [count]

end Sys2Proof.Machine

section
open Sys2Proof Sys2Proof.Machine

/-- Settles O46: an accepted command appends the frames it asks for, U_IDLE takes one, and no other transaction but
RESET writes an index. -/
theorem countTracksEnqueuesAndDequeues : Obligations.CountTracksEnqueuesAndDequeues := by
  refine fun s t h => ⟨fun _ => count_commandTransaction h, fun _ => count_tickTransaction h, fun hreset => ?_⟩
  obtain rfl := Host.Outcome.next.inj hreset
  exact count_resetTransaction s

end

namespace Sys2Proof.Machine

variable {w : CommandWord} {s t : State}

/-! ### One-frame commands in a row -/

/-- A command word that `SUBMIT` gets one frame of: it asks for one and passes the checks of R84 before `SUBMIT`. -/
def LegalOneFrame (w : CommandWord) : Prop :=
  framesAsked w = 1 ∧ reservedBitSet w = false ∧ illegalLength w = false

/-- The block takes its next event as if the words `ws`, one an instant, then `rest` stood at the ports; instants at
which nothing arrives may come first. -/
def Awaits (s : State) (ws : List CommandWord) (rest : List Instant) : Prop :=
  ∀ c, nextEvent s.params c s.arrivals = nextEvent s.params c (ws.map Instant.ofCommand ++ rest)

/-- `s` when the ports have handed over a command of producer 0 and hold `left` still (R214, R242). -/
def State.serving (left : List Instant) (s : State) : State :=
  { s with arrivals := left, taken := s.taken + 1, issuers := s.issuers ++ [0] }

/-- A reserved opcode asks for no frame (R82, R182). -/
theorem framesAsked_of_reservedOp (h : reservedOp w = true) : framesAsked w = 0 := by
  have hop : (w.extractLsb' 0 4).toNat = 0 ∨ 9 ≤ (w.extractLsb' 0 4).toNat := by
    simpa [reservedOp, BitVec.toNat_eq] using h
  unfold framesAsked
  split <;> omega

theorem commandTransaction_legalOneFrame (hw : LegalOneFrame w) (s : State) :
    ∃ f, commandTransaction w s = submit (.one f) s := by
  obtain ⟨hasks, hbit, hlen⟩ := hw
  have hop : reservedOp w = false :=
    Bool.eq_false_iff.mpr fun hres => nomatch (framesAsked_of_reservedOp hres).symm.trans hasks
  have hbits : (reservedOp w || reservedBitSet w) = false := by rw [hop, hbit]; rfl
  have hchecked := commandTransaction_checkedAnswer w s
  generalize commandTransaction w s = a at hchecked
  cases hchecked with
  | illegal hill => exact nomatch hbits.symm.trans hill
  | length _ hill => exact nomatch hlen.symm.trans hill
  | @frames _ _ fs hsize =>
    cases fs with
    | one f => exact ⟨f, rfl⟩
    | two => exact nomatch hasks.symm.trans hsize
  | read _ _ hnone => exact nomatch hasks.symm.trans hnone

theorem step_of_upcoming_command {left : List Instant} (h : upcoming s = some (.command ⟨0, w⟩, left)) :
    step s = commandTransaction w (s.serving left) := by
  rw [step, h]
  rfl

/-- The step that takes the next of the words submits its frame; the ports then hold the other words. -/
theorem step_of_awaits (hw : LegalOneFrame w) {ws : List CommandWord} {rest : List Instant}
    (h : Awaits s (w :: ws) rest) :
    ∃ f left, step s = submit (.one f) (s.serving left) ∧ Awaits (s.serving left) ws rest := by
  have hup := h (Config.arbiter s.taken)
  rw [List.map_cons, List.cons_append, nextEvent_ofCommand] at hup
  obtain ⟨f, hsub⟩ := commandTransaction_legalOneFrame hw (s.serving _)
  exact ⟨f, _, (step_of_upcoming_command hup).trans hsub, fun c => nextEvent_quiet s.params c _⟩

/-- With a free slot the next word is accepted (R118, R170). -/
theorem step_legalOneFrame_free (h : QueueOk s) (hroom : 1 ≤ free s) (hw : LegalOneFrame w) {ws : List CommandWord}
    {rest : List Instant} (hawaits : Awaits s (w :: ws) rest) :
    ∃ t, step s = .next t ∧ QueueOk t ∧ Awaits t ws rest ∧ free t = free s - 1 ∧
      t.responses = s.responses ++ [0] := by
  obtain ⟨f, left, hstep, hleft⟩ := step_of_awaits hw hawaits
  have hcount : count (s.pushed f) = count s + 1 := count_pushed h (isFull_eq_false_of_free h hroom) f
  have hfree : free (s.pushed f) = free s - 1 := by
    rw [free, hcount, ← Nat.sub_sub]
    rfl
  rw [submit_one_free (s := s.serving left) h hroom] at hstep
  exact ⟨_, hstep, queueOk_pushed h f, hleft, hfree, rfl⟩

/-- Without one it is answered with `ERR_FULL`, and the queue stays (R118, R170). -/
theorem step_legalOneFrame_full (hfull : free s = 0) (hw : LegalOneFrame w) {ws : List CommandWord}
    {rest : List Instant} (hawaits : Awaits s (w :: ws) rest) :
    ∃ t, step s = .next t ∧ t.responses = s.responses ++ [1] ∧ t.head = s.head ∧ t.tail = s.tail ∧ t.q = s.q := by
  obtain ⟨f, left, hstep, _⟩ := step_of_awaits hw hawaits
  have hlt : free (s.serving left) < (Batch.one f).size := Nat.lt_succ_of_le hfull.le
  rw [submit_full hlt] at hstep
  exact ⟨_, hstep, rfl, rfl, rfl, rfl⟩

/-- As many one-frame words as there are free slots are all accepted (R118). -/
theorem run_legalOneFrames {ws ws' : List CommandWord} {rest : List Instant} (h : QueueOk s)
    (hroom : ws.length ≤ free s) (hws : ∀ w ∈ ws, LegalOneFrame w) (hawaits : Awaits s (ws ++ ws') rest) :
    ∃ t, run ws.length s = .next t ∧ Awaits t ws' rest ∧ free t = free s - ws.length ∧
      t.responses = s.responses ++ List.replicate ws.length 0 := by
  induction ws generalizing s with
  | nil => exact ⟨s, rfl, hawaits, rfl, (List.append_nil _).symm⟩
  | cons w ws ih =>
    obtain ⟨hw, hws⟩ := List.forall_mem_cons.mp hws
    rw [List.length_cons] at hroom
    obtain ⟨u, hstep, hok, hawaitsu, hfree, hresp⟩ := step_legalOneFrame_free h (by omega) hw hawaits
    obtain ⟨t, hrun, hawaitst, hfreet, hrespt⟩ := ih hok (by omega) hws hawaitsu
    refine ⟨t, (run_succ_of_step _ hstep).trans hrun, hawaitst, ?_, ?_⟩
    · rw [hfreet, hfree, Nat.sub_sub, Nat.add_comm, List.length_cons]
    · rw [hrespt, hresp, List.append_assoc, List.singleton_append, List.length_cons, List.replicate_succ]

theorem free_of_isEmpty (h : QueueOk s) (hempty : isEmpty s = true) : free s = s.params.n - 1 := by
  rw [free, (isEmpty_iff_count h).mp hempty, Nat.sub_zero]

end Sys2Proof.Machine

section
open Sys2Proof Sys2Proof.Machine

/-- Settles O48: all words but the last fill the free slots of the empty queue one by one, and the last finds none. -/
theorem capacityIsOneLessThanTheSlots : Obligations.CapacityIsOneLessThanTheSlots := by
  intro s ws rest h hempty hlen hws harrivals
  obtain rfl | ⟨init, w, rfl⟩ := List.eq_nil_or_concat' ws
  · obtain ⟨⟨hn, _⟩, _⟩ := h
    exact absurd hn (by rw [← hlen]; decide)
  · have hinit : init.length = s.params.n - 1 := Nat.eq_sub_of_add_eq (by simpa using hlen)
    have hfree := free_of_isEmpty h hempty
    obtain ⟨t, hrun, hawaits, hfull, hresp⟩ := run_legalOneFrames (ws := init) (ws' := [w]) (rest := rest) h (by omega)
      (fun v hv => hws v (List.mem_append_left _ hv)) (fun c => by rw [harrivals])
    obtain ⟨u, hstep, hanswer⟩ := step_legalOneFrame_full (by omega) (hws w (by simp)) hawaits
    rw [hinit] at hrun hresp
    exact ⟨t, u, hrun, hresp, hstep, hanswer⟩

end

namespace Sys2Proof.Machine

variable {s t : State}

/-! ### The effect of each micro-step, written out -/

/-- U_IDLE with a queued frame (R132). -/
theorem exec_uIdle_dequeues {f : Frame} (hne : isEmpty s = false) (htail : s.tail < s.params.n)
    (hf : f = (s.q.read s.tail).getD (Frame.unwritten s.resets s.tail)) :
    exec .uIdle s = .next { s with
      tail := inc s.params.n s.tail, curLen := f.len, curB := f.b, bptr := 0, rem := f.len - 1
      phase := START, sub := 0 } := by
  have hread : memRead s.tail s = .ok f := by rw [memRead, if_pos htail, hf]
  have hdeq : qDeq s = .ok (some f, { s with tail := inc s.params.n s.tail }) := by
    rw [qDeq, hne, hread, ← State.setTail_of_lt (inc_lt_of_lt htail)]
    rfl
  simp only [exec, execUIdle, hdeq]
  rfl

/-- U_IDLE with an empty queue (R133). -/
theorem exec_uIdle_stays (hempty : isEmpty s = true) : exec .uIdle s = .next s := by
  simp only [exec, execUIdle, qDeq_empty hempty]

theorem exec_uStart0 (s : State) : exec .uStart0 s = .next { s with
    dioOut := true, clkOut := true, sub := 1, trace := s.trace ++ [.dio true, .clk true] } := by
  simp [exec, execUStart0, State.driveDio, State.driveClk, State.setSub]

theorem exec_uWbit_of_byte {k : BitVec 3} {x : Byte} (h : s.curB[s.bptr.toNat]? = some x) :
    exec (.uWbit k) s = .next { s with
      clkOut := true, dioOut := x.getLsbD k.toNat, sub := k.setWidth 4 + 1
      trace := s.trace ++ [.clk false, .dio (x.getLsbD k.toNat), .clk true] } := by
  simp [exec, execUWbit, h, State.driveDio, State.driveClk, State.setSub]

theorem exec_uWbit {k : BitVec 3} (h : s.bptr.toNat < 7) : exec (.uWbit k) s = .next { s with
    clkOut := true, dioOut := s.curB[s.bptr.toNat].getLsbD k.toNat, sub := k.setWidth 4 + 1
    trace := s.trace ++ [.clk false, .dio (s.curB[s.bptr.toNat].getLsbD k.toNat), .clk true] } :=
  exec_uWbit_of_byte (Vector.getElem?_eq_getElem h)

theorem exec_uWprep (s : State) : exec .uWprep s = .next { s with
    clkOut := false, dioOut := true, sub := 9, trace := s.trace ++ [.clk false, .dio true] } := by
  simp [exec, execUWprep, State.driveDio, State.driveClk, State.setSub]

/-- U_ACKS (R140): the level sampled is counted and shown in the trace, and goes nowhere else. -/
theorem exec_uAcks (s : State) : exec .uAcks s = .next { s with
    ackMiss := if s.dioIn then satInc s.ackMiss else s.ackMiss, sub := 1, trace := s.trace ++ [.smp s.dioIn] } := by
  cases hlevel : s.dioIn <;> simp [exec, execUAcks, State.countMiss, State.emit, State.setSub, hlevel]

theorem exec_uAcke_goesOn (h : s.rem ≠ 0) : exec .uAcke s = .next { s with
    clkOut := false, rem := s.rem - 1, bptr := s.bptr + 1, phase := WRITEBIT, sub := 0
    trace := s.trace ++ [.clk false] } := if_pos h

theorem exec_uAcke_stops (h : s.rem = 0) : exec .uAcke s = .next { s with
    clkOut := false, phase := STOP, sub := 0, trace := s.trace ++ [.clk false] } := if_neg (not_not.mpr h)

theorem exec_uDone_empty (h : isEmpty s = true) : exec .uDone s = .next { s with
    phase := IDLE, sub := 0, timerOn := false, trace := s.trace ++ [.tmrStop] } := if_pos h

theorem exec_uDone_queued (h : isEmpty s = false) : exec .uDone s = .next { s with phase := IDLE, sub := 0 } :=
  if_neg (Bool.eq_false_iff.mp h)

/-- The micro-step of {`PHASE`, `SUB`} has its row of R100 (R130). -/
theorem microRow_of_microState {i : Instr} (h : decodeMicro (microState s) = .ok i) : MicroRow s.phase s.sub i := by
  simpa only [phaseField_microState, subField_microState] using microRow_of_decodeMicro h

/-! ### What the invariant says of the sequencer's registers -/

theorem BlockInv.stop_levels (h : BlockInv s) (hphase : s.phase = STOP) :
    s.clkOut = decide (s.sub = 3) ∧ s.dioOut = decide (s.sub ≤ 1) := by
  obtain ⟨_, _, _, hstop⟩ := h.lines
  exact hstop hphase

/-- While a frame is sent `CUR_B[BPTR]` exists (R36 item 5). -/
theorem BlockInv.bptr_lt (h : BlockInv s) (hsend : Sending s) : s.bptr.toNat < 7 := by
  obtain ⟨_, hsum⟩ := h.current_frame hsend
  have := s.curLen.isLt
  omega

theorem BlockInv.isEmpty_of_on_idle (h : BlockInv s) (hphase : s.phase = IDLE) (hon : s.timerOn = true) :
    isEmpty s = false :=
  (h.busy_when_on hon).resolve_left (not_not.mpr hphase)

end Sys2Proof.Machine

section
open Sys2Proof Sys2Proof.Machine

/-- Settles O20: U_IDLE is `Q_DEQ`, which finds a frame when the timer is on. -/
theorem idleDequeuesOrStays : Obligations.IdleDequeuesOrStays :=
  fun _ => ⟨fun _ => exec_uIdle_dequeues, exec_uIdle_stays, fun h hphase hon => h.isEmpty_of_on_idle hphase hon⟩

/-- Settles O21: the three effects written out; the levels before U_START1 are those of the invariant. -/
theorem startDrivesTheStartCondition : Obligations.StartDrivesTheStartCondition := by
  refine fun s => ⟨exec_uStart0 s, rfl, rfl, fun h hphase hsub => ?_⟩
  obtain ⟨_, hstart, _, _⟩ := h.lines
  simpa [hsub] using hstart hphase

/-- Settles O22: the effect written out; the byte exists by R36 item 5, and the clock is low before bit 0. -/
theorem wbitShiftsOneBitOut : Obligations.WbitShiftsOneBitOut := by
  refine fun k s => ⟨exec_uWbit, fun h hsend => h.bptr_lt hsend, fun h hphase hsub => ?_⟩
  obtain ⟨_, _, hbit, _⟩ := h.lines
  obtain ⟨hclk, _⟩ := hbit hphase
  simpa [hsub] using hclk

/-- Settles O23: both effects written out. -/
theorem wprepReleasesAndWclkhOpensTheAckWindow : Obligations.WprepReleasesAndWclkhOpensTheAckWindow :=
  fun s => ⟨exec_uWprep s, rfl⟩

/-- Settles O24: the count is the saturating one of R8, and the levels are those of R36 item 6. -/
theorem acksCountsAMiss : Obligations.AcksCountsAMiss := by
  refine fun s => ⟨⟨_, ?count, exec_uAcks s⟩, fun h hphase hsub => (h.ack_window hphase hsub).symm⟩
  case count => split <;> simp [satInc_toNat]

/-- Settles O25: both ways on from U_ACKE. -/
theorem ackeGoesOnOrStops : Obligations.AckeGoesOnOrStops := fun _ => ⟨exec_uAcke_goesOn, exec_uAcke_stops⟩

/-- Settles O26: the four effects written out; the levels before U_STOP0 and U_STOP3 are those of the invariant. -/
theorem stopDrivesTheStopCondition : Obligations.StopDrivesTheStopCondition := by
  refine fun s => ⟨rfl, rfl, rfl, rfl, fun h hphase hsub => ?low, fun h hphase hsub => ?high⟩
  case low => rw [(h.stop_levels hphase).1, hsub]; rfl
  case high =>
    rw [(h.stop_levels hphase).1, (h.stop_levels hphase).2, hsub]
    decide

/-- Settles O27: `EMPTY` is `HEAD` = `TAIL`. -/
theorem doneStopsTheTimerWhenEmpty : Obligations.DoneStopsTheTimerWhenEmpty :=
  fun s => ⟨fun h => exec_uDone_empty ((isEmpty_iff s).mpr h),
    fun h => exec_uDone_queued (Bool.eq_false_iff.mpr fun he => h ((isEmpty_iff s).mp he))⟩

/-- Settles O28: a position without a row of R100 does not decode, and reachable positions are legal. -/
theorem unlistedMicroStateFaults : Obligations.UnlistedMicroStateFaults := by
  refine ⟨fun a s hon hillegal => ?_, fun s hreach => hreach.blockInv.position⟩
  obtain ⟨hoff, _⟩ | ⟨_, i, hdec, _⟩ | ⟨_, _, _, hfault⟩ := tickTransaction_cases a s
  · exact nomatch hon.symm.trans hoff
  · exact absurd (legalPosition_of_microRow (microRow_of_microState hdec)) hillegal
  · exact hfault

end

namespace Sys2Proof.Machine

variable {s : State} {i : Instant} {rest : List Instant}

/-! ### The event that a step takes from the first instant -/

/-- A RESET is taken first (R214, R260). -/
theorem step_of_reset (harr : s.arrivals = i :: rest) (hreset : i.reset = true) :
    step s = .next (resetTransaction
      { s with arrivals := { i with reset := false } :: rest, taken := s.taken + 1 }) := by
  rw [step, upcoming, harr, nextEvent_reset _ _ _ _ hreset]
  rfl

/-- A command presented alone is taken next (R170, R214). -/
theorem step_of_lone_command {r : Request} (harr : s.arrivals = i :: rest) (hreset : i.reset = false)
    (hissued : i.issued s.params = [r]) :
    step s = commandTransaction r.word { s with
      arrivals := { i with commands := [] } :: rest, taken := s.taken + 1
      issuers := s.issuers ++ [r.producer] } := by
  have hpick : pick (Config.arbiter s.taken) (ready (i.issued s.params)) = some r := by rw [hissued]; rfl
  rw [step, upcoming, harr, nextEvent_command rest hreset hpick, hissued, List.erase_cons_head]
  rfl

/-- With neither a RESET nor a command the tick is taken (R210, R214). -/
theorem step_of_lone_tick {a : Bool} (harr : s.arrivals = i :: rest) (hreset : i.reset = false)
    (hissued : i.issued s.params = []) (htick : i.tick = some a) :
    step s = tickTransaction a { s with arrivals := rest, taken := s.taken + 1 } := by
  rw [step, upcoming, harr, nextEvent_tick _ rest hreset hissued htick]
  rfl

/-- At the open gate a tick is the micro-step of {`PHASE`, `SUB`} (R130, R210). -/
theorem tickTransaction_of_decodeMicro {u : Instr} (hon : s.timerOn = true)
    (hdec : decodeMicro (microState s) = .ok u) (a : Bool) :
    tickTransaction a s = exec u { s with dioIn := a } := by
  simp only [tickTransaction, hon, hdec, Bool.true_eq_false, if_false]

end Sys2Proof.Machine

section
open Sys2Proof Sys2Proof.Machine

/-- Settles O32: the event that R214 puts first is taken, and its transaction runs what the decoder reads. -/
theorem stepRunsTheDecodedInstruction : Obligations.StepRunsTheDecodedInstruction := by
  refine fun s i rest harr => ⟨?command, ?illegal, ?tick, step_of_reset harr⟩
  case command =>
    intro r c hreset hissued hdec
    rw [step_of_lone_command harr hreset hissued, commandTransaction, hdec]
  case illegal =>
    intro r e hreset hissued hdec
    rw [step_of_lone_command harr hreset hissued, commandTransaction, hdec]
    rfl
  case tick =>
    intro a u hreset hissued htick hon hdec
    rw [step_of_lone_tick harr hreset hissued htick]
    exact tickTransaction_of_decodeMicro (s := { s with arrivals := rest, taken := s.taken + 1 }) hon hdec a

end

namespace Sys2Proof.Machine

variable {s t : State}

/-! ### What no micro-step reads -/

/-- U_ACKS apart, no micro-step reads the data line or `ACK_MISS`, or writes them: with other values there it does the
same (R149). -/
theorem exec_with_acknowledgment {i : Instr} (hi : isMicroStep i = true) (hacks : i ≠ .uAcks) (m : BitVec 8)
    (d : Bool) (h : exec i s = .next t) :
    exec i { s with ackMiss := m, dioIn := d } = .next { t with ackMiss := m, dioIn := d } := by
  cases i with
  | enq | wrdisp | wrseg | bright | don | doff | ackrc | stat | wrbyte => exact nomatch hi
  | uAcks => exact absurd rfl hacks
  | uIdle =>
    obtain ⟨hempty, rfl⟩ | ⟨hne, htail, f, hf, rfl⟩ := execUIdle_cases h
    · exact exec_uIdle_stays hempty
    · exact exec_uIdle_dequeues (s := { s with ackMiss := m, dioIn := d }) hne htail hf
  | uWbit =>
    obtain ⟨x, hx, rfl⟩ := execUWbit_cases h
    simp only [exec, execUWbit, hx]
    rfl
  | uAcke =>
    obtain ⟨hrem, rfl⟩ | ⟨hrem, rfl⟩ := execUAcke_cases h
    · exact exec_uAcke_goesOn hrem
    · exact exec_uAcke_stops hrem
  | uDone =>
    obtain ⟨hempty, rfl⟩ | ⟨hne, rfl⟩ := execUDone_cases h
    · exact exec_uDone_empty hempty
    · exact exec_uDone_queued hne
  | uStart0 | uStart1 | uStart2 | uWprep | uWclkh | uStop0 | uStop1 | uStop2 | uStop3 =>
    obtain rfl := Host.Outcome.next.inj h
    rfl

end Sys2Proof.Machine

section
open Sys2Proof Sys2Proof.Machine

/-- Settles O31: only U_ACKS reads what differs, and it writes it to `ACK_MISS` and the trace alone. -/
theorem acknowledgmentNeverSteers : Obligations.AcknowledgmentNeverSteers := by
  intro i s t m d hi hexec
  by_cases hacks : i = .uAcks
  · subst hacks
    obtain rfl := Host.Outcome.next.inj ((exec_uAcks s).symm.trans hexec)
    exact ⟨_, exec_uAcks _, rfl, by simp [forgetSamples]⟩
  · exact ⟨_, exec_with_acknowledgment hi hacks m d hexec, rfl, rfl⟩

end

namespace Sys2Proof.Machine

variable {s t : State}

/-! ### What a tick shows on the two lines -/

/-- The events of a micro-step, as R132 to R146 list them; none for what is no micro-step. -/
def microEvents (s : State) : Instr → List Event
  | .uStart0 => [.dio true, .clk true]
  | .uStart1 => [.dio false]
  | .uStart2 => [.clk false]
  | .uWbit k => [.clk false, .dio ((s.curB[s.bptr.toNat]?.getD 0).getLsbD k.toNat), .clk true]
  | .uWprep => [.clk false, .dio true]
  | .uWclkh => [.clk true]
  | .uAcks => [.smp s.dioIn]
  | .uAcke => [.clk false]
  | .uStop0 => [.clk false]
  | .uStop1 => [.dio false]
  | .uStop2 => [.clk true]
  | .uStop3 => [.dio true]
  | .uDone => if isEmpty s then [.tmrStop] else []
  | _ => []

theorem exec_trace {i : Instr} (hi : isMicroStep i = true) (h : exec i s = .next t) :
    t.trace = s.trace ++ microEvents s i := by
  cases i with
  | enq | wrdisp | wrseg | bright | don | doff | ackrc | stat | wrbyte => exact nomatch hi
  | uIdle => obtain ⟨_, rfl⟩ | ⟨_, _, f, _, rfl⟩ := execUIdle_cases h <;> simp [microEvents]
  | uWbit => obtain ⟨x, hx, rfl⟩ := execUWbit_cases h; simp [microEvents, hx]
  | uAcke => obtain ⟨_, rfl⟩ | ⟨_, rfl⟩ := execUAcke_cases h <;> rfl
  | uDone => obtain ⟨he, rfl⟩ | ⟨he, rfl⟩ := execUDone_cases h <;> simp [microEvents, he]
  | uStart0 | uStart1 | uStart2 | uWprep | uWclkh | uAcks | uStop0 | uStop1 | uStop2 | uStop3 =>
    obtain rfl := Host.Outcome.next.inj h
    simp [microEvents]

/-- From the levels of its micro-state each micro-step either keeps the data line, or drives it with the clock low,
but for U_START1 and U_STOP3 (R135, R145). -/
theorem conditions_microEvents {i : Instr} (hlines : LineLevels s) (hrow : MicroRow s.phase s.sub i) :
    conditions s.clkOut s.dioOut (microEvents s i) =
      if s.phase = START ∧ s.sub = 1 then [Condition.start]
      else if s.phase = STOP ∧ s.sub = 3 then [Condition.stop] else [] := by
  obtain ⟨hhigh, hstart, hbit, hstop⟩ := hlines
  generalize hphase : s.phase = p at hrow
  generalize hsub : s.sub = k at hrow
  cases hrow with
  | uDone => cases hempty : isEmpty s <;> simp [microEvents, conditions, hempty]
  | uStart0 | uStart1 | uStart2 =>
    obtain ⟨hclk, hdio⟩ := hstart hphase
    simp [microEvents, conditions, hclk, hdio, hsub]
  | uStop0 | uStop1 | uStop2 | uStop3 =>
    obtain ⟨hclk, hdio⟩ := hstop hphase
    simp [microEvents, conditions, hclk, hdio, hsub]
  | uIdle | uWbit | uWprep | uWclkh | uAcks | uAcke => simp [microEvents, conditions]

end Sys2Proof.Machine

section
open Sys2Proof Sys2Proof.Machine

/-- Settles O53: a dropped tick shows nothing and finds the block in `IDLE`, an accepted one the events of its
micro-step, from the levels of the invariant. -/
theorem dataMovesWithClockHighOnlyAtStartAndStop : Obligations.DataMovesWithClockHighOnlyAtStartAndStop := by
  intro a s t h htick
  obtain ⟨hoff, hdrop⟩ | ⟨_, i, hdec, hexec⟩ | ⟨_, _, _, hfault⟩ := tickTransaction_cases a s
  · obtain rfl := Host.Outcome.next.inj (hdrop.symm.trans htick)
    obtain ⟨hphase, _⟩ := h.idle_when_off hoff
    exact ⟨[], (List.append_nil _).symm, by simp [conditions, hphase]⟩
  · have hrow := microRow_of_microState hdec
    exact ⟨microEvents { s with dioIn := a } i, exec_trace (isMicroStep_of_microRow hrow) (hexec.symm.trans htick),
      conditions_microEvents (s := { s with dioIn := a }) h.lines hrow⟩
  · exact nomatch hfault.symm.trans htick

end

namespace Sys2Proof.Machine

/-! ### A frame on its way -/

/-- How many missed acknowledgments a list of events shows (R140). -/
def misses (es : List Event) : Nat := es.countP (· == .smp true)

theorem misses_append (es es' : List Event) : misses (es ++ es') = misses es + misses es' := List.countP_append

theorem min_ackMiss (v : BitVec 8) : min 255 v.toNat = v.toNat := Nat.min_eq_right (Nat.le_of_lt_succ v.isLt)

/-- `s` when the ports have handed over a tick with the data line at `a` and hold `left` still. -/
def State.ticked (left : List Instant) (a : Bool) (s : State) : State :=
  { s with arrivals := left, taken := s.taken + 1, dioIn := a }

/-- The block takes ticks at its next `n` instants, the data line at `lvl i` at the i-th. -/
def TicksCome (s : State) (lvl : Nat → Bool) (n : Nat) : Prop :=
  ∀ c < n, s.arrivals.drop c = Instant.ofTick (lvl c) :: s.arrivals.drop (c + 1)

/-- `c` accepted ticks have led from `s`, where `f` was queued first, to `u`, at the position `p`, `k` in the byte `j`
of `f`, and have put the events `es` on the wire. -/
structure Midway (s : State) (f : Frame) (c : Nat) (p : BitVec 3) (k : BitVec 4) (j : Nat) (es : List Event)
    (u : State) : Prop where
  run : run c s = .next u
  earlier : ∀ i < c, ∃ v, Machine.run i s = .next v ∧ v.timerOn = true ∧ (0 < i → v.phase ≠ IDLE)
  on : u.timerOn = true
  left : u.arrivals = s.arrivals.drop c
  phase : u.phase = p
  sub : u.sub = k
  bptr : u.bptr.toNat = j
  rem : u.rem.toNat + j + 1 = f.len.toNat
  curB : u.curB = f.b
  params : u.params = s.params
  head : u.head = s.head
  tail : u.tail = inc s.params.n s.tail
  q : u.q = s.q
  trace : u.trace = s.trace ++ es
  missed : u.ackMiss.toNat = min 255 (s.ackMiss.toNat + misses es)

/-- Some state is `Midway`. -/
def Sent (s : State) (f : Frame) (c : Nat) (p : BitVec 3) (k : BitVec 4) (j : Nat) (es : List Event) : Prop :=
  ∃ u, Midway s f c p k j es u

variable {s u w : State} {f : Frame} {lvl : Nat → Bool} {n c j : Nat} {p : BitVec 3} {k : BitVec 4} {es : List Event}

theorem ticksCome_of_arrivals {rest : List Instant} (h : s.arrivals = ticks n lvl ++ rest) : TicksCome s lvl n := by
  intro c hc
  have hlen : c < s.arrivals.length := by rw [h]; simp [ticks]; omega
  have hget : s.arrivals[c] = Instant.ofTick (lvl c) := by
    simp [h, ticks, List.getElem_append_left, hc]
  rw [← hget]
  exact List.drop_eq_getElem_cons hlen

theorem run_succ_of_run {t : State} (hrun : run c s = .next u) (hstep : step u = .next t) :
    run (c + 1) s = .next t := by
  rw [run_add hrun, run_succ_of_step 0 hstep, run_zero]

/-- At the open gate the tick that comes next is the micro-step of the position (R130, R210). -/
theorem step_of_tick {i : Instr} {a : Bool} {left : List Instant} (harr : u.arrivals = Instant.ofTick a :: left)
    (hon : u.timerOn = true) (hrow : MicroRow u.phase u.sub i) : step u = exec i (u.ticked left a) := by
  rw [step_of_lone_tick harr rfl rfl rfl]
  exact tickTransaction_of_decodeMicro (s := { u with arrivals := left, taken := u.taken + 1 }) hon
    (decodeMicro_of_microRow hrow) a

/-- The tick after `c` others. -/
theorem Midway.step_eq {i : Instr} (h : Midway s f c p k j es u) (hticks : TicksCome s lvl n) (hc : c < n)
    (hrow : MicroRow p k i) : step u = exec i (u.ticked (s.arrivals.drop (c + 1)) (lvl c)) :=
  step_of_tick (h.left.trans (hticks c hc)) h.on (h.phase ▸ h.sub ▸ hrow)

/-- What was accepted before the next tick. -/
theorem Midway.accepted (h : Midway s f c p k j es u) (hp : p ≠ IDLE) :
    ∀ i < c + 1, ∃ v, Machine.run i s = .next v ∧ v.timerOn = true ∧ (0 < i → v.phase ≠ IDLE) := by
  intro i hi
  rcases Nat.lt_succ_iff_lt_or_eq.mp hi with hlt | rfl
  · exact h.earlier i hlt
  · exact ⟨u, h.run, h.on, fun _ => h.phase ▸ hp⟩

/-- A micro-step of a frame being sent leads on, with its own events and the byte it leaves the sequencer in. -/
theorem Midway.next {i : Instr} {j' : Nat} {es' : List Event} (h : Midway s f c p k j es u)
    (hticks : TicksCome s lvl n) (hc : c < n) (hrow : MicroRow p k i) (hp : p ≠ IDLE) (hd : p ≠ DONE)
    (hexec : exec i (u.ticked (s.arrivals.drop (c + 1)) (lvl c)) = .next w) (hbptr : w.bptr.toNat = j')
    (hrem : w.rem.toNat + j' + 1 = f.len.toNat) (htrace : w.trace = u.trace ++ es')
    (hmiss : w.ackMiss.toNat = min 255 (u.ackMiss.toNat + misses es')) :
    Midway s f (c + 1) w.phase w.sub j' (es ++ es') w := by
  have hframe := exec_microFrame (isMicroStep_of_microRow hrow) hexec
  have hidle : i ≠ .uIdle := fun hi => hp ((eq_uIdle_iff_of_microRow hrow).mp hi).1
  have hdone : i ≠ .uDone := by rintro rfl; cases hrow; exact hd rfl
  obtain ⟨htail, _, hcurB⟩ := hframe.frame hidle
  refine ⟨run_succ_of_run h.run ((h.step_eq hticks hc hrow).trans hexec), h.accepted hp,
    (hframe.timerOn hdone).trans h.on, hframe.arrivals, rfl, rfl, hbptr, hrem, hcurB.trans h.curB,
    hframe.params.trans h.params, hframe.head.trans h.head, htail.trans h.tail, hframe.q.trans h.q, ?_, ?_⟩
  · rw [htrace, h.trace, List.append_assoc]
  · rw [hmiss, h.missed, misses_append]
    omega

/-- The micro-steps that neither count a byte nor sample only lead to the next position. -/
theorem Sent.next {i : Instr} {p' : BitVec 3} {k' : BitVec 4} {es' : List Event} (h : Sent s f c p k j es)
    (hticks : TicksCome s lvl n) (hc : c < n) (hrow : MicroRow p k i)
    (heffect : ∀ v : State, v.phase = p → v.curB = f.b → v.bptr.toNat = j →
      ∃ w, exec i v = .next w ∧ w.phase = p' ∧ w.sub = k' ∧ w.trace = v.trace ++ es')
    (hquiet : misses es' = 0 := by rfl) (hp : p ≠ IDLE := by decide) (hd : p ≠ DONE := by decide)
    (hacks : i ≠ .uAcks := by exact nofun) (hacke : i ≠ .uAcke := by exact nofun) :
    Sent s f (c + 1) p' k' j (es ++ es') := by
  obtain ⟨u, h⟩ := h
  obtain ⟨w, hexec, rfl, rfl, htrace⟩ := heffect (u.ticked (s.arrivals.drop (c + 1)) (lvl c)) h.phase h.curB h.bptr
  have hframe := exec_microFrame (isMicroStep_of_microRow hrow) hexec
  have hidle : i ≠ .uIdle := fun hi => hp ((eq_uIdle_iff_of_microRow hrow).mp hi).1
  obtain ⟨hbptr, hrem⟩ := hframe.bytes hidle hacke
  refine ⟨w, h.next hticks hc hrow hp hd hexec (hbptr ▸ h.bptr) (hrem ▸ h.rem) htrace ?_⟩
  rw [hframe.ackMiss hacks, hquiet]
  exact (min_ackMiss u.ackMiss).symm

/-! ### The stages of a frame -/

/-- The first tick loads the frame (R132). -/
theorem sent_idle (h : BlockInv s) (hphase : s.phase = IDLE) (hne : isEmpty s = false)
    (hread : s.q.read s.tail = some f) (hticks : TicksCome s lvl n) (hn : 0 < n) : Sent s f 1 START 0 0 [] := by
  have hon : s.timerOn = true := by
    by_contra hoff
    obtain ⟨_, hempty⟩ := h.idle_when_off (Bool.not_eq_true _ ▸ hoff)
    exact nomatch hempty.symm.trans hne
  have hsub : s.sub = 0 := by simpa [LegalPosition, hphase] using h.position
  have hrow : MicroRow s.phase s.sub .uIdle := by rw [hphase, hsub]; exact .uIdle
  have hlen : 1 ≤ f.len.toNat := by
    obtain ⟨g, hg, hlen⟩ := h.queueInv.oldest hne
    exact Option.some.inj (hread.symm.trans hg) ▸ hlen
  have hstep := (step_of_tick (hticks 0 hn) hon hrow).trans
    (exec_uIdle_dequeues hne h.tail_lt (f := f) (by simp [State.ticked, hread]))
  have hearlier : ∀ i < 1, ∃ v, run i s = .next v ∧ v.timerOn = true ∧ (0 < i → v.phase ≠ IDLE) := by
    rintro i hi
    obtain rfl : i = 0 := by omega
    exact ⟨s, rfl, hon, fun hpos => absurd hpos (lt_irrefl 0)⟩
  have hrem : (f.len - 1).toNat + 0 + 1 = f.len.toNat := by bv_omega
  exact ⟨_, run_succ_of_run rfl hstep, hearlier, hon, rfl, rfl, rfl, rfl, hrem, rfl, rfl, rfl, rfl, rfl,
    (List.append_nil _).symm, (min_ackMiss s.ackMiss).symm⟩

/-- The start condition (R134 to R136). -/
theorem Sent.start (h : Sent s f c START 0 j es) (hticks : TicksCome s lvl n) (hc : c + 3 ≤ n) :
    Sent s f (c + 3) WRITEBIT 0 j (es ++ [.dio true, .clk true, .dio false, .clk false]) := by
  have h0 := h.next hticks (by omega) .uStart0 fun v hv _ _ => ⟨_, exec_uStart0 v, hv, rfl, rfl⟩
  have h1 := h0.next hticks (by omega) .uStart1 fun v hv _ _ => ⟨_, rfl, hv, rfl, rfl⟩
  have h2 := h1.next hticks (by omega) .uStart2 fun v _ _ _ => ⟨_, rfl, rfl, rfl, rfl⟩
  simpa using h2

/-- The stop condition (R142 to R145). -/
theorem Sent.stop (h : Sent s f c STOP 0 j es) (hticks : TicksCome s lvl n) (hc : c + 4 ≤ n) :
    Sent s f (c + 4) DONE 0 j (es ++ [.clk false, .dio false, .clk true, .dio true]) := by
  have h0 := h.next hticks (by omega) .uStop0 fun v hv _ _ => ⟨_, rfl, hv, rfl, rfl⟩
  have h1 := h0.next hticks (by omega) .uStop1 fun v hv _ _ => ⟨_, rfl, hv, rfl, rfl⟩
  have h2 := h1.next hticks (by omega) .uStop2 fun v hv _ _ => ⟨_, rfl, hv, rfl, rfl⟩
  have h3 := h2.next hticks (by omega) .uStop3 fun v _ _ _ => ⟨_, rfl, rfl, rfl, rfl⟩
  simpa using h3

/-- The first `m` bits of a byte (R137). -/
theorem Sent.bits {x : Byte} (h : Sent s f c WRITEBIT 0 j es) (hticks : TicksCome s lvl n) (hx : f.b[j]? = some x)
    {m : Nat} (hm : m ≤ 8) (hc : c + m ≤ n) :
    Sent s f (c + m) WRITEBIT (BitVec.ofNat 4 m) j
      (es ++ (List.range m).flatMap fun k => [.clk false, .dio (x.getLsbD k), .clk true]) := by
  induction m with
  | zero => simpa using h
  | succ m ih =>
    have hindex : (BitVec.ofNat 3 m).toNat = m := by simp; omega
    have hrow : MicroRow WRITEBIT (BitVec.ofNat 4 m) (.uWbit (BitVec.ofNat 3 m)) := by
      have hsub : BitVec.ofNat 4 m = (BitVec.ofNat 3 m).setWidth 4 := BitVec.eq_of_toNat_eq (by simp; omega)
      rw [hsub]
      exact .uWbit _
    have hnext : (BitVec.ofNat 3 m).setWidth 4 + 1 = BitVec.ofNat 4 (m + 1) := BitVec.eq_of_toNat_eq (by simp; omega)
    rw [List.range_succ, List.flatMap_append, ← List.append_assoc, List.flatMap_singleton]
    refine (ih (by omega) (by omega)).next hticks (by omega) hrow fun v hv hcurB hbptr => ?_
    refine ⟨_, exec_uWbit_of_byte (x := x) (by rw [hcurB, hbptr, hx]), hv, hnext, ?_⟩
    rw [hindex]

/-- U_ACKS counts the level it samples (R140). -/
theorem Sent.acks (h : Sent s f c READACK 0 j es) (hticks : TicksCome s lvl n) (hc : c < n) :
    Sent s f (c + 1) READACK 1 j (es ++ [.smp (lvl c)]) := by
  obtain ⟨u, h⟩ := h
  refine ⟨_, h.phase ▸ h.next hticks hc .uAcks (by decide) (by decide) (exec_uAcks _) h.bptr h.rem rfl ?_⟩
  show (if lvl c then satInc u.ackMiss else u.ackMiss).toNat = min 255 (u.ackMiss.toNat + misses [.smp (lvl c)])
  cases lvl c with
  | false => exact (min_ackMiss u.ackMiss).symm
  | true => exact (satInc_toNat u.ackMiss).trans (Nat.min_comm ..)

/-- A byte up to its acknowledgment (R137 to R140). -/
theorem Sent.byte {x : Byte} (h : Sent s f c WRITEBIT 0 j es) (hticks : TicksCome s lvl n) (hx : f.b[j]? = some x)
    (hc : c + 11 ≤ n) :
    ∃ es', Sent s f (c + 11) READACK 1 j (es ++ es') ∧ byteEvents x (lvl (c + 10)) = es' ++ [.clk false] := by
  have h8 := h.bits hticks hx (le_refl 8) (by omega)
  have h9 := h8.next hticks (by omega) .uWprep fun v hv _ _ => ⟨_, exec_uWprep v, hv, rfl, rfl⟩
  have h10 := h9.next hticks (by omega) .uWclkh fun v _ _ _ => ⟨_, rfl, rfl, rfl, rfl⟩
  have h11 := h10.acks hticks (by omega)
  simp only [List.append_assoc] at h11
  exact ⟨_, h11, by simp [byteEvents]⟩

/-- A byte that is not the last one (R141). -/
theorem Sent.byte_goesOn {x : Byte} (h : Sent s f c WRITEBIT 0 j es) (hticks : TicksCome s lvl n)
    (hx : f.b[j]? = some x) (hj : j + 1 < f.len.toNat) (hc : c + 12 ≤ n) :
    Sent s f (c + 12) WRITEBIT 0 (j + 1) (es ++ byteEvents x (lvl (c + 10))) := by
  obtain ⟨es', ⟨u, h⟩, hevents⟩ := h.byte hticks hx (by omega)
  have hbptr := h.bptr
  have hrem := h.rem
  have hlt := f.len.isLt
  rw [hevents, ← List.append_assoc]
  refine ⟨_, h.next hticks (by omega) .uAcke (by decide) (by decide) (exec_uAcke_goesOn ?_) ?_ ?_ rfl ?_⟩
  · intro h0
    have : u.rem.toNat = 0 := congrArg BitVec.toNat h0
    omega
  · show (u.bptr + 1).toNat = j + 1
    bv_omega
  · show (u.rem - 1).toNat + (j + 1) + 1 = f.len.toNat
    bv_omega
  · exact (min_ackMiss u.ackMiss).symm

/-- The last byte (R141). -/
theorem Sent.byte_stops {x : Byte} (h : Sent s f c WRITEBIT 0 j es) (hticks : TicksCome s lvl n)
    (hx : f.b[j]? = some x) (hj : j + 1 = f.len.toNat) (hc : c + 12 ≤ n) :
    Sent s f (c + 12) STOP 0 j (es ++ byteEvents x (lvl (c + 10))) := by
  obtain ⟨es', ⟨u, h⟩, hevents⟩ := h.byte hticks hx (by omega)
  have hrem := h.rem
  rw [hevents, ← List.append_assoc]
  refine ⟨_, h.next hticks (by omega) .uAcke (by decide) (by decide) (exec_uAcke_stops ?_) h.bptr hrem rfl ?_⟩
  · exact BitVec.eq_of_toNat_eq (show u.rem.toNat = 0 by omega)
  · exact (min_ackMiss u.ackMiss).symm

/-! ### The bytes of a frame, one after the other -/

/-- The payload bytes of `f`, each with the level at the tick that samples after it. -/
def wireBytes (f : Frame) (lvl : Nat → Bool) : List (Byte × Bool) := f.payload.mapIdx fun j x => (x, lvl (12 * j + 14))

theorem Frame.length_payload (f : Frame) : f.payload.length = f.len.toNat := by
  simp [Frame.payload]
  omega

@[simp] theorem length_wireBytes (f : Frame) (lvl : Nat → Bool) : (wireBytes f lvl).length = f.len.toNat := by
  rw [wireBytes, List.length_mapIdx, Frame.length_payload]

/-- One more byte of the frame. -/
theorem take_wireBytes (hj : j < f.len.toNat) :
    ∃ x, f.b[j]? = some x ∧ (wireBytes f lvl).take (j + 1) = (wireBytes f lvl).take j ++ [(x, lvl (12 * j + 14))] := by
  have hj7 : j < 7 := by omega
  refine ⟨f.b[j], Vector.getElem?_eq_getElem hj7, ?_⟩
  rw [List.take_succ_eq_append_getElem (by simpa using hj)]
  simp [wireBytes, Frame.payload]

/-- Every byte before the last leads to the next one. -/
theorem Sent.bytes (h : Sent s f 4 WRITEBIT 0 0 es) (hticks : TicksCome s lvl (12 * f.len.toNat + 9))
    (hj : j < f.len.toNat) :
    Sent s f (12 * j + 4) WRITEBIT 0 j (es ++ ((wireBytes f lvl).take j).flatMap fun x => byteEvents x.1 x.2) := by
  induction j with
  | zero => simpa using h
  | succ j ih =>
    obtain ⟨x, hx, htake⟩ := take_wireBytes (lvl := lvl) (Nat.lt_of_succ_lt hj)
    rw [htake, List.flatMap_append, ← List.append_assoc, List.flatMap_singleton]
    exact (ih (by omega)).byte_goesOn hticks hx hj (by omega)

/-- All ticks of a frame but the last (R148). -/
theorem sent_frame (h : BlockInv s) (hphase : s.phase = IDLE) (hne : isEmpty s = false)
    (hread : s.q.read s.tail = some f) (hticks : TicksCome s lvl (12 * f.len.toNat + 9)) :
    ∃ j, Sent s f (12 * f.len.toNat + 8) DONE 0 j (frameEvents (wireBytes f lvl)) := by
  have hidle := sent_idle h hphase hne hread hticks (by omega)
  obtain ⟨j, hj⟩ : ∃ j, f.len.toNat = j + 1 := by
    obtain ⟨_, _, hrem⟩ := hidle
    exact Nat.exists_eq_succ_of_ne_zero (by omega)
  have hlast := (hidle.start hticks (by omega)).bytes hticks (j := j) (by omega)
  obtain ⟨x, hx, htake⟩ := take_wireBytes (lvl := lvl) (f := f) (j := j) (by omega)
  have hstop := (hlast.byte_stops hticks hx hj.symm (by omega)).stop hticks (by omega)
  have hall : wireBytes f lvl = (wireBytes f lvl).take j ++ [(x, lvl (12 * j + 14))] := by
    rw [← htake, List.take_of_length_le (by simp [hj])]
  refine ⟨j, ?_⟩
  rw [hall]
  simpa [frameEvents, show 12 * f.len.toNat + 8 = 12 * j + 4 + 12 + 4 by omega] using hstop

/-- The last tick: U_DONE stops the timer exactly when no other frame is queued (R146). -/
theorem Sent.done (h : Sent s f c DONE 0 j es) (hticks : TicksCome s lvl n) (hc : c < n) :
    ∃ t, run (c + 1) s = .next t ∧
      t.trace = s.trace ++ es ++ (if inc s.params.n s.tail = s.head then [.tmrStop] else []) ∧
      t.phase = IDLE ∧ t.sub = 0 ∧ t.head = s.head ∧ t.tail = inc s.params.n s.tail ∧ t.q = s.q ∧
      t.timerOn = decide (inc s.params.n s.tail ≠ s.head) ∧ t.arrivals = s.arrivals.drop (c + 1) ∧
      t.ackMiss.toNat = min 255 (s.ackMiss.toNat + misses es) ∧
      (∀ i < c + 1, ∃ v, run i s = .next v ∧ v.timerOn = true ∧ (0 < i → v.phase ≠ IDLE)) := by
  obtain ⟨u, h⟩ := h
  have hstep := h.step_eq hticks hc .uDone
  have hempty : isEmpty u = true ↔ inc s.params.n s.tail = s.head := by
    rw [isEmpty_iff, h.head, h.tail, eq_comm]
  by_cases hlast : inc s.params.n s.tail = s.head
  · have hstop := hstep.trans (exec_uDone_empty (hempty.mpr hlast))
    refine ⟨_, run_succ_of_run h.run hstop, ?_, rfl, rfl, h.head, h.tail, h.q, ?_, rfl, h.missed,
      h.accepted (by decide)⟩
    · rw [if_pos hlast]
      exact congrArg (· ++ [Event.tmrStop]) h.trace
    · exact (decide_eq_false (not_not.mpr hlast)).symm
  · have hgoOn := hstep.trans (exec_uDone_queued (Bool.eq_false_iff.mpr fun he => hlast (hempty.mp he)))
    refine ⟨_, run_succ_of_run h.run hgoOn, ?_, rfl, rfl, h.head, h.tail, h.q, ?_, rfl, h.missed,
      h.accepted (by decide)⟩
    · rw [if_neg hlast, List.append_nil]
      exact h.trace
    · exact h.on.trans (decide_eq_true hlast).symm

/-! ### Counting the events of a frame -/

/-- Each byte has 28 drives, the start and the stop condition four each (R148). -/
theorem countP_isDrive_frameEvents (bytes : List (Byte × Bool)) :
    (frameEvents bytes).countP Event.isDrive = 28 * bytes.length + 8 := by
  have hbyte (x : Byte) (a : Bool) : (byteEvents x a).countP Event.isDrive = 28 := rfl
  have hbytes : (bytes.flatMap fun x => byteEvents x.1 x.2).countP Event.isDrive = 28 * bytes.length := by
    induction bytes with
    | nil => rfl
    | cons x bytes ih =>
      rw [List.flatMap_cons, List.countP_append, hbyte, ih, List.length_cons]
      omega
  simp only [frameEvents, List.countP_append, hbytes]
  show 4 + 28 * bytes.length + 4 = 28 * bytes.length + 8
  omega

/-- The misses of a frame are the bytes with a 1 sampled after them (R140, R149). -/
theorem misses_frameEvents (bytes : List (Byte × Bool)) : misses (frameEvents bytes) = bytes.countP Prod.snd := by
  have hbyte (x : Byte) (a : Bool) : misses (byteEvents x a) = if a then 1 else 0 := by cases a <;> rfl
  have hbytes : misses (bytes.flatMap fun x => byteEvents x.1 x.2) = bytes.countP Prod.snd := by
    induction bytes with
    | nil => rfl
    | cons x bytes ih => rw [List.flatMap_cons, misses_append, hbyte, ih, List.countP_cons, Nat.add_comm]
  simp only [frameEvents, misses_append, hbytes]
  exact Nat.zero_add _

theorem countP_snd_wireBytes (f : Frame) (lvl : Nat → Bool) :
    (wireBytes f lvl).countP Prod.snd = (List.range f.len.toNat).countP fun j => lvl (12 * j + 14) := by
  have hlevels : (wireBytes f lvl).map Prod.snd = (List.range f.len.toNat).map fun j => lvl (12 * j + 14) :=
    List.ext_getElem (by simp) (by simp [wireBytes])
  simpa [List.countP_map, Function.comp_def] using congrArg (List.countP id) hlevels

end Sys2Proof.Machine

section
open Sys2Proof Sys2Proof.Machine

/-- Settles O54: the ticks are followed one by one, U_IDLE, the start condition, the bytes, the stop condition and
U_DONE; the counts are read off the events. -/
theorem frameOnTheWire : Obligations.FrameOnTheWire := by
  intro s f lvl rest h hphase hne hread harr
  have hticks := ticksCome_of_arrivals harr
  obtain ⟨j, hsent⟩ := sent_frame h hphase hne hread hticks
  obtain ⟨t, hrun, htrace, hidle, hsub, hhead, htail, hq, hon, hleft, hmissed, haccepted⟩ :=
    hsent.done hticks (by omega)
  have hrest : t.arrivals = rest := by rw [hleft, harr]; simp [ticks]
  rw [misses_frameEvents, countP_snd_wireBytes] at hmissed
  have hdrives := countP_isDrive_frameEvents (wireBytes f lvl)
  rw [length_wireBytes] at hdrives
  exact ⟨t, hrun, htrace, hdrives, hidle, hsub, hhead, htail, hq, hon, hrest, hmissed, haccepted⟩

end

namespace Sys2Proof.Machine

variable {w : CommandWord} {s t : State}

/-! ### A command that fails -/

/-- The response added tells the answered states apart. -/
theorem answered_eq_of_responses {r r' : ResponseWord} (h : (answered s r').responses = s.responses ++ [r]) :
    answered s r' = answered s r := by
  rw [List.singleton_inj.mp (List.append_cancel_left h)]

/-- The queue primitives do not answer. -/
theorem enqueue_responses {fs : Batch} {b : Bool} (h : fs.enqueue s = .ok (b, t)) : t.responses = s.responses := by
  cases fs with
  | one f => obtain ⟨_, _, rfl⟩ | ⟨_, _, _, rfl⟩ := qEnq_cases h <;> rfl
  | two f1 f2 => obtain ⟨_, _, rfl⟩ | ⟨_, _, _, _, rfl⟩ := qEnq2_cases h <;> rfl

/-- In every state, what `SUBMIT` does not answer with `OK` it only answers (R170). -/
theorem submit_failed {fs : Batch} {r : ResponseWord} (hsub : submit fs s = .next t)
    (hresp : t.responses = s.responses ++ [r]) (hcode : codeOf r ≠ 0) : t = answered s r := by
  obtain rfl | ⟨s1, henq, rfl⟩ := submit_next_cases hsub
  · exact answered_eq_of_responses hresp
  · rw [State.respond_responses, wake_responses, enqueue_responses henq] at hresp
    have hr := List.singleton_inj.mp (List.append_cancel_left hresp)
    exact absurd (hr ▸ codeOf_responseWord .ok false 0) hcode

/-- A command that does not answer `OK` has only answered (R181). -/
theorem commandTransaction_failed {r : ResponseWord} (hcmd : commandTransaction w s = .next t)
    (hresp : t.responses = s.responses ++ [r]) (hcode : codeOf r ≠ 0) : t = answered s r := by
  have hchecked := commandTransaction_checkedAnswer w s
  rw [hcmd] at hchecked
  generalize hans : Host.Outcome.next t = a at hchecked
  cases hchecked with
  | illegal | length =>
    obtain rfl := Host.Outcome.next.inj hans
    exact answered_eq_of_responses hresp
  | frames => exact submit_failed hans.symm hresp hcode
  | read _ _ _ hok hzero =>
    obtain rfl := Host.Outcome.next.inj hans
    have hr := List.singleton_inj.mp (List.append_cancel_left (hok.symm.trans hresp))
    exact absurd (hr ▸ hzero) hcode

/-- A legal word that asks for more frames than there are free slots (R84 step 4). -/
theorem commandTransaction_full (hbit : reservedBitSet w = false) (hlen : illegalLength w = false)
    (hfull : free s < framesAsked w) : commandTransaction w s = .next (answered s 1) := by
  have hop : reservedOp w = false := Bool.eq_false_iff.mpr fun hres =>
    absurd hfull (framesAsked_of_reservedOp hres ▸ Nat.not_lt_zero _)
  have hchecked := commandTransaction_checkedAnswer w s
  generalize commandTransaction w s = a at hchecked
  cases hchecked with
  | illegal hill => simp [hop, hbit] at hill
  | length _ hill => exact nomatch hlen.symm.trans hill
  | frames _ _ hsize => exact submit_full (hsize ▸ hfull)
  | read _ _ hnone => exact absurd hfull (hnone ▸ Nat.not_lt_zero _)

end Sys2Proof.Machine

section
open Sys2Proof Sys2Proof.Machine

/-- Settles O7: each answer but `OK` comes alone; with one slot free the check of the free slots is the one that a legal
two-frame word fails. -/
theorem failedCommandChangesNothing : Obligations.FailedCommandChangesNothing :=
  ⟨fun _ _ _ _ => commandTransaction_failed, fun _ _ _ hfree hasks hbit hlen =>
    commandTransaction_full hbit hlen (by rw [hfree, hasks]; exact Nat.one_lt_two)⟩

end

namespace Sys2Proof.Machine

variable {w : CommandWord} {s t : State}

/-! ### The frames of ENQ and WRDISP -/

/-- Cutting off lanes that are 0 loses nothing: what is not listed is read as 0 (R62). -/
theorem getD_take_of_lanesZeroFrom {m n : Nat} {v : Vector Byte m} (h : LanesZeroFrom n v) (k : Nat) :
    (v.toList.take n).getD k 0 = v.toList.getD k 0 := by
  by_cases hk : k < n
  · simp [List.getD, hk]
  · by_cases hm : k < m
    · have hzero : v[k] = 0 := h ⟨k, hm⟩ (Nat.not_lt.mp hk)
      simp [List.getD, hk, hm, hzero]
    · simp [List.getD, hk, hm]

/-- With every lane in use there is none to check (R83). -/
theorem lanesZeroFrom_of_le {m n : Nat} (h : m ≤ n) (v : Vector Byte m) : LanesZeroFrom n v :=
  fun k hk => absurd k.isLt (Nat.not_lt.mpr (h.trans hk))

/-- The frame of a legal ENQ: its lanes above `LEN` are 0 already (R171). -/
theorem rawFrame_eq {len : BitVec 3} {b : Vector Byte 7} (h : LanesZeroFrom len.toNat b) :
    rawFrame len b = ⟨len, b⟩ := by
  have hlen : (b.toList.take len.toNat).length = len.toNat := by simp [Nat.le_of_lt_succ len.isLt]
  simp only [rawFrame, Frame.of, hlen, getD_take_of_lanesZeroFrom h, Frame.mk.injEq]
  exact ⟨by rw [BitVec.ofNat_toNat, BitVec.setWidth_eq], Vector.ext fun k _ => by simp [List.getD]⟩

/-- The second frame of a legal WRDISP (R172). -/
theorem displayFrame_eq {c : BitVec 3} {segs : Vector Byte 6} (hc : c ≠ 7) (h : LanesZeroFrom c.toNat segs) (a : Byte) :
    displayFrame c a segs = ⟨c + 1, #v[0xC0 ||| a, segs[0], segs[1], segs[2], segs[3], segs[4], segs[5]]⟩ := by
  have hle : c.toNat ≤ 6 := by
    have hne : c.toNat ≠ 7 := fun h7 => hc (BitVec.eq_of_toNat_eq h7)
    omega
  have hlen : (segs.toList.take c.toNat).length = c.toNat := by simp [hle]
  simp only [displayFrame, Frame.of, List.length_cons, hlen, Frame.mk.injEq]
  refine ⟨by bv_omega, Vector.ext fun k hk => ?_⟩
  rw [Vector.getElem_ofFn]
  cases k with
  | zero => rfl
  | succ k =>
    refine (getD_take_of_lanesZeroFrom h k).trans ?_
    have hk6 : k < 6 := Nat.lt_of_succ_lt_succ hk
    interval_cases k <;> simp [List.getD]

/-! ### What each command does -/

/-- `SUBMIT` of two frames, which is all or nothing (R114, R170). -/
theorem submit_two (h : QueueOk s) (f1 f2 : Frame) :
    (2 ≤ free s → submit (.two f1 f2) s = .next (acceptedTwo s f1 f2)) ∧
    (free s < 2 → submit (.two f1 f2) s = .next (answered s 1)) :=
  ⟨fun hroom => submit_two_free h hroom f1 f2, fun hfull => submit_full hfull⟩

/-- ENQ: the lanes, the length, then `SUBMIT` (R171). -/
theorem exec_enq (len : BitVec 3) (b : Vector Byte 7) (s : State) : exec (.enq len b) s =
    if LanesZeroFrom len.toNat b then
      if len = 0 then .next (answered s 2) else submit (.one ⟨len, b⟩) s
    else .next (answered s 3) := by
  have hexec : exec (.enq len b) s = execEnq len b s := rfl
  by_cases h : LanesZeroFrom len.toNat b
  · rw [hexec, execEnq, (lanesZeroFrom_iff _ _).mpr h, rawFrame_eq h, if_pos h]
    rfl
  · rw [hexec, execEnq, Bool.eq_false_iff.mpr (mt (lanesZeroFrom_iff _ _).mp h), if_neg h]
    rfl

/-- WRDISP: the lanes, the length, then `SUBMIT` (R172). -/
theorem exec_wrdisp (c : BitVec 3) (a : Byte) (segs : Vector Byte 6) (s : State) : exec (.wrdisp c a segs) s =
    if LanesZeroFrom c.toNat segs then
      if c = 7 then .next (answered s 2)
      else submit (.two ⟨1, #v[0x40, 0, 0, 0, 0, 0, 0]⟩
        ⟨c + 1, #v[0xC0 ||| a, segs[0], segs[1], segs[2], segs[3], segs[4], segs[5]]⟩) s
    else .next (answered s 3) := by
  have hexec : exec (.wrdisp c a segs) s = execWrdisp c a segs s := rfl
  by_cases h : LanesZeroFrom c.toNat segs
  · rw [hexec, execWrdisp, (lanesZeroFrom_iff _ _).mpr h, if_pos h]
    by_cases hc : c = 7
    · rw [if_pos hc, if_pos hc]; rfl
    · rw [if_neg hc, if_neg hc, displayFrame_eq hc h]; rfl
  · rw [hexec, execWrdisp, Bool.eq_false_iff.mpr (mt (lanesZeroFrom_iff _ _).mp h), if_neg h]
    rfl

/-- WRSEG is `SUBMIT` of two frames (R173). -/
theorem exec_wrseg (a seg : Byte) (s : State) : exec (.wrseg a seg) s =
    submit (.two ⟨1, #v[s.params.dataCmdFixed, 0, 0, 0, 0, 0, 0]⟩ ⟨2, #v[0xC0 ||| a, seg, 0, 0, 0, 0, 0]⟩) s := rfl

/-- So is BRIGHT (R174). -/
theorem exec_bright (lvl : BitVec 3) (s : State) : exec (.bright lvl) s =
    submit (.two ⟨1, #v[0x40, 0, 0, 0, 0, 0, 0]⟩ ⟨1, #v[0x88 ||| lvl.setWidth 8, 0, 0, 0, 0, 0, 0]⟩) s := rfl

/-- So is DON (R175). -/
theorem exec_don (s : State) : exec .don s =
    submit (.two ⟨1, #v[0x40, 0, 0, 0, 0, 0, 0]⟩ ⟨1, #v[s.params.displayOnByte, 0, 0, 0, 0, 0, 0]⟩) s := rfl

/-- So is DOFF (R176). -/
theorem exec_doff (s : State) : exec .doff s =
    submit (.two ⟨1, #v[0x40, 0, 0, 0, 0, 0, 0]⟩ ⟨1, #v[s.params.displayOffByte, 0, 0, 0, 0, 0, 0]⟩) s := rfl

/-- ACKRC answers `ACK_CLEAN` in `RES` and clears the count (R177). -/
theorem exec_ackrc (s : State) : exec .ackrc s = .next { s with
    ackMiss := 0, responses := s.responses ++ [if s.ackMiss = 0 then 0x00000004 else 0x00000000] } := by
  have hanswer : responseWord .ok (ackClean s) 0 = if s.ackMiss = 0 then 0x00000004 else 0x00000000 := by
    rw [ackClean]
    split_ifs with h
    · rw [h]; rfl
    · rw [beq_eq_false_iff_ne.mpr h]; rfl
  rw [← hanswer]
  rfl

/-- With no missed acknowledgment counted, ACKRC only answers 0x4 (R177). -/
theorem exec_ackrc_of_clean (h : s.ackMiss = 0) : exec .ackrc s = .next (answered s 0x00000004) := by
  rw [exec_ackrc, if_pos h, ← h]
  rfl

/-- STAT answers `STATUS` (R178). -/
theorem exec_stat (s : State) : exec .stat s = .next (answered s (status s)) :=
  congrArg (fun r => Host.Outcome.next (answered s r)) (responseWord_status s)

/-- Right after reset `EMPTY` and `ACK_CLEAN` are set and all else of `STATUS` is 0 (R40, R178). -/
theorem status_boot {p : Params} (hp : p.Legal) (arrivals : List Instant) :
    status (State.boot p arrivals) = 0x00000048 := by
  have hcount : count (State.boot p arrivals) = 0 := by simp [count, State.boot, State.reset]
  have hfull : isFull (State.boot p arrivals) = false := by
    obtain ⟨hn, _⟩ := hp
    have hne : 0 ≠ p.n - 1 := by omega
    simp [isFull, inc, State.boot, State.reset, hne]
  rw [status, hcount, hfull]
  simp [isEmpty, ackClean, State.boot, State.reset]

/-! ### Words with a bit that R83 marks `0` -/

/-- A bit that R83 marks `0` makes the word illegal, whatever its opcode (R85). -/
theorem commandTransaction_reservedBit (s : State) (hbit : reservedBitSet w = true) :
    commandTransaction w s = .next (answered s 3) :=
  commandTransaction_illegal s (by rw [hbit, Bool.or_true])

/-- Of the words of DON, DOFF, ACKRC and STAT one is legal, the instruction's own (R83). -/
theorem commandTransaction_bare_illegal {op : BitVec 4} {i : Instr} {own : CommandWord} (hrow : BareRow op i)
    (hown : encode i = .command own) (hop : w.extractLsb' 0 4 = op) (hne : w ≠ own) (s : State) :
    commandTransaction w s = .next (answered s 3) := by
  subst hop
  refine commandTransaction_reservedBit s ?_
  rw [reservedBitSet_bare hrow, Bool.not_eq_true', Bool.eq_false_iff]
  exact fun hb => hne (Encoding.command.inj ((encode_of_decodeRow (.bare hrow) hb).symm.trans hown))

end Sys2Proof.Machine

section
open Sys2Proof Sys2Proof.Machine

/-- Settles O8: ENQ checks the lanes, then the length, and `SUBMIT` the free slot. -/
theorem enqEnqueuesOneFrame : Obligations.EnqEnqueuesOneFrame := by
  intro len b s hok
  rw [exec_enq]
  refine ⟨fun hlen hlanes hroom => ?_, fun hlanes => if_neg hlanes, fun hlanes hlen => ?_,
    fun hlanes hlen hfull => ?_, fun w hop hz => commandTransaction_reservedBit s ?_⟩
  · rw [if_pos hlanes, if_neg hlen, submit_one_free hok hroom]
  · rw [if_pos hlanes, if_pos hlen]
  · rw [if_pos hlanes, if_neg hlen, submit_full (Nat.lt_one_iff.mpr hfull)]
  · rw [reservedBitSet_enq hop, show zField w = true from hz, Bool.true_or]

/-- Settles O9: WRDISP checks the lanes, of which `LEN` = 7 leaves none, then the length, and `SUBMIT` the free
slots. -/
theorem wrdispEnqueuesCommandAndDisplayFrame : Obligations.WrdispEnqueuesCommandAndDisplayFrame := by
  intro c a segs s hok
  rw [exec_wrdisp]
  refine ⟨fun hc hlanes hroom => ?_, fun hlanes => if_neg hlanes, fun hc => ?_, fun hc hlanes hfull => ?_,
    fun w hop hz => commandTransaction_reservedBit s ?_⟩
  · rw [if_pos hlanes, if_neg hc, submit_two_free hok hroom]
  · rw [if_pos (lanesZeroFrom_of_le (hc ▸ by decide) segs), if_pos hc]
  · rw [if_pos hlanes, if_neg hc, submit_full hfull]
  · rw [reservedBitSet_wrdisp hop, show zField w = true from hz, Bool.true_or]

/-- Settles O10: WRSEG hands its two frames to `SUBMIT`. -/
theorem wrsegEnqueuesFixedAddressFrames : Obligations.WrsegEnqueuesFixedAddressFrames := by
  intro a seg s hok
  rw [exec_wrseg]
  obtain ⟨hroom, hfull⟩ := submit_two hok _ _
  refine ⟨hroom, hfull, fun w hop hbits => commandTransaction_reservedBit s ?_⟩
  simpa [reservedBitSet, hop] using hbits

/-- Settles O11: BRIGHT hands its two frames to `SUBMIT`. -/
theorem brightEnqueuesBrightnessFrames : Obligations.BrightEnqueuesBrightnessFrames := by
  intro lvl s hok
  rw [exec_bright]
  obtain ⟨hroom, hfull⟩ := submit_two hok _ _
  refine ⟨hroom, hfull, fun w hop hbits => commandTransaction_reservedBit s ?_⟩
  simpa [reservedBitSet, hop] using hbits

/-- Settles O12: DON hands its two frames to `SUBMIT`, and its word is 5. -/
theorem donEnqueuesDisplayOnFrames : Obligations.DonEnqueuesDisplayOnFrames := by
  intro s hok
  rw [exec_don]
  obtain ⟨hroom, hfull⟩ := submit_two hok _ _
  exact ⟨hroom, hfull, fun _ hop hw => commandTransaction_bare_illegal .don rfl hop hw s⟩

/-- Settles O13: DOFF hands its two frames to `SUBMIT`, and its word is 6. -/
theorem doffEnqueuesDisplayOffFrames : Obligations.DoffEnqueuesDisplayOffFrames := by
  intro s hok
  rw [exec_doff]
  obtain ⟨hroom, hfull⟩ := submit_two hok _ _
  exact ⟨hroom, hfull, fun _ hop hw => commandTransaction_bare_illegal .doff rfl hop hw s⟩

/-- Settles O15: after one ACKRC the count is 0, and the word of ACKRC is 7. -/
theorem ackrcReadsAndClears : Obligations.AckrcReadsAndClears := by
  refine fun s => ⟨exec_ackrc s, fun t hexec => ?_, fun _ hop hw =>
    commandTransaction_bare_illegal .ackrc rfl hop hw s⟩
  obtain rfl := Host.Outcome.next.inj ((exec_ackrc s).symm.trans hexec)
  exact exec_ackrc_of_clean rfl

/-- Settles O16: `STATUS` does not read the responses, and the word of STAT is 8. -/
theorem statAnswersStatus : Obligations.StatAnswersStatus := by
  refine fun s => ⟨exec_stat s, fun t hexec => ?_, fun p arrivals hp => ?_, fun _ hop hw =>
    commandTransaction_bare_illegal .stat rfl hop hw s⟩
  · obtain rfl := Host.Outcome.next.inj ((exec_stat s).symm.trans hexec)
    exact exec_stat _
  · rw [exec_stat, status_boot hp]

end

namespace Sys2Proof.Machine

variable {w : CommandWord} {s t : State}

/-! ### The frames of a command word -/

/-- There are as many frames as the opcode says (R182). -/
theorem length_framesOf (p : Params) (w : CommandWord) : (framesOf p w).length = framesAsked w := by
  unfold framesOf framesAsked
  split <;> rfl

/-- The opcodes of two frames (R182). -/
theorem opcode_of_framesAsked_two (h : framesAsked w = 2) :
    w.extractLsb' 0 4 = 2 ∨ w.extractLsb' 0 4 = 3 ∨ w.extractLsb' 0 4 = 4 ∨ w.extractLsb' 0 4 = 5 ∨
      w.extractLsb' 0 4 = 6 := by
  simp only [BitVec.toNat_eq]
  unfold framesAsked at h
  split at h <;> simp_all

/-- The first of two frames is the data command (R172 to R176, R182). -/
theorem framesOf_head (p : Params) (h : framesAsked w = 2) : (framesOf p w)[0]? =
    some ⟨1, #v[if w.extractLsb' 0 4 = 3 then p.dataCmdFixed else 0x40, 0, 0, 0, 0, 0, 0]⟩ := by
  rcases opcode_of_framesAsked_two h with hop | hop | hop | hop | hop <;> simp [framesOf, hop]

/-- `lvl` is all of `B0` when the bits above it are 0 (R174). -/
theorem setWidth_level : ∀ x : Byte, x.extractLsb' 3 5 = 0 → (x.extractLsb' 0 3).setWidth 8 = x := by decide

/-- A legal ENQ word hands the frame of its lanes to `SUBMIT` (R171). -/
theorem exec_decodeEnq_legal (hop : opField w = 1) (hbits : reservedBitSet w = false)
    (hlen : illegalLength w = false) (s : State) :
    exec (decodeEnq w) s = submit (.one ⟨lenField w, Vector.ofFn fun k : Fin 7 => lane w k⟩) s := by
  rw [reservedBitSet_enq hop, Bool.or_eq_false_iff, Bool.not_eq_false'] at hbits
  obtain ⟨_, hclear⟩ := hbits
  obtain ⟨_, hlength⟩ := opcode_checks hop
  have hne : lenField w ≠ 0 := by simpa [hlength] using hlen
  have hlanes : LanesZeroFrom (lenField w).toNat (Vector.ofFn fun k : Fin 7 => lane w k) :=
    (lanesZeroFrom_ofFn_lane w 0 _ (by decide)).mpr hclear
  rw [exec_decodeEnq]
  refine (exec_enq _ _ s).trans ?_
  rw [if_pos hlanes, if_neg hne]

/-- A legal WRDISP word hands the data command and the frame of its lanes to `SUBMIT` (R172). -/
theorem exec_wrdisp_legal (hop : opField w = 2) (hbits : reservedBitSet w = false)
    (hlen : illegalLength w = false) (s : State) :
    exec (.wrdisp (lenField w) (lane w 0) (Vector.ofFn fun k : Fin 6 => lane w (k + 1))) s =
      submit (.two ⟨1, #v[0x40, 0, 0, 0, 0, 0, 0]⟩ ⟨lenField w + 1,
        #v[0xC0 ||| laneOf w 0, laneOf w 1, laneOf w 2, laneOf w 3, laneOf w 4, laneOf w 5, laneOf w 6]⟩) s := by
  rw [reservedBitSet_wrdisp hop, Bool.or_eq_false_iff, Bool.not_eq_false'] at hbits
  obtain ⟨_, hclear⟩ := hbits
  obtain ⟨_, hlength⟩ := opcode_checks hop
  have hne : lenField w ≠ 7 := by simpa [hlength] using hlen
  rw [exec_wrdisp, if_pos ((lanesZeroFrom_ofFn_lane w 1 _ (by decide)).mpr hclear), if_neg hne]
  simp only [Vector.getElem_ofFn]
  rfl

/-- A word that passes the checks of R84 before the last is `SUBMIT` of its frames, or asks for none. -/
theorem exec_submits {b : Bool} {i : Instr} (hrow : DecodeRow w b i) (hb : b = true)
    (hbits : reservedBitSet w = false) (hlen : illegalLength w = false) (s : State) :
    framesAsked w = 0 ∨ ∃ fs : Batch, framesOf s.params w = fs.frames ∧ exec i s = submit fs s := by
  cases hrow with
  | enq hop =>
    have hop' : w.extractLsb' 0 4 = 1 := hop
    exact .inr ⟨_, by simp only [framesOf, hop']; rfl, exec_decodeEnq_legal hop hbits hlen s⟩
  | wrdisp hop =>
    have hop' : w.extractLsb' 0 4 = 2 := hop
    exact .inr ⟨_, by simp only [framesOf, hop']; rfl, exec_wrdisp_legal hop hbits hlen s⟩
  | wrseg hop =>
    have hop' : w.extractLsb' 0 4 = 3 := hop
    exact .inr ⟨_, by simp only [framesOf, hop']; rfl, exec_wrseg _ _ s⟩
  | bright hop =>
    have hop' : w.extractLsb' 0 4 = 4 := hop
    simp only [Bool.and_eq_true, beq_iff_eq] at hb
    obtain ⟨⟨_, hhigh⟩, _⟩ := hb
    refine .inr ⟨_, ?_, exec_bright _ s⟩
    rw [setWidth_level _ hhigh]
    simp only [framesOf, hop']
    rfl
  | bare hbare =>
    generalize hop : opField w = op at hbare
    have hop' : w.extractLsb' 0 4 = op := hop
    cases hbare with
    | don => exact .inr ⟨_, by simp only [framesOf, hop']; rfl, exec_don s⟩
    | doff => exact .inr ⟨_, by simp only [framesOf, hop']; rfl, exec_doff s⟩
    | ackrc | stat => exact .inl (by simp [framesAsked, hop'])

/-- So is the transaction of a legal word (R170, R182). -/
theorem commandTransaction_submits (hbits : (reservedOp w || reservedBitSet w) = false)
    (hlen : illegalLength w = false) (s : State) :
    framesAsked w = 0 ∨ ∃ fs : Batch, framesOf s.params w = fs.frames ∧ commandTransaction w s = submit fs s := by
  obtain ⟨hop, hbit⟩ := Bool.or_eq_false_iff.mp hbits
  obtain ⟨b, i, hrow, hdec⟩ | ⟨hres, _⟩ := decodeCommand_cases w
  · cases hb : b with
    | false => exact nomatch hbit.symm.trans (reservedBitSet_of_decodeRow hrow hb)
    | true =>
      have hexec : commandTransaction w s = exec i s := by
        rw [commandTransaction, hdec, hb]; rfl
      rw [hexec]
      exact exec_submits hrow hb hbit hlen s
  · obtain ⟨hcheck, _⟩ := opcode_checks (w := w) rfl
    exact absurd hop (by simpa [hcheck] using fun h0 => hres.resolve_left h0)

/-- An accepted command leaves its frames behind the queued ones (R170, R182). -/
theorem contents_commandTransaction (h : QueueOk s) (hok : expectedCode w s = .ok)
    (hcmd : commandTransaction w s = .next t) : contents t = contents s ++ framesOf s.params w := by
  obtain ⟨hbits, hlen, hroom⟩ := expectedCode_eq_ok_iff.mp hok
  obtain hnone | ⟨fs, hframes, hsub⟩ := commandTransaction_submits hbits hlen s
  · have hframe := commandTransaction_commandFrame hcmd
    obtain ⟨hq, hhead, _⟩ := hframe.queue hnone
    have hnil : framesOf s.params w = [] := List.length_eq_zero_iff.mp ((length_framesOf _ w).trans hnone)
    rw [hnil, List.append_nil]
    exact contents_congr hframe.params hhead hframe.tail hq
  · have hsize : fs.size ≤ free s := by rwa [← Batch.length_frames, ← hframes, length_framesOf]
    rw [hframes]
    exact contents_submit h hsize (hsub.symm.trans hcmd)

end Sys2Proof.Machine

section
open Sys2Proof Sys2Proof.Machine

/-- Settles O18: each row's instruction submits the frames of its word, and `SUBMIT` puts them behind the queued
ones. -/
theorem acceptedCommandAppendsItsFrames : Obligations.AcceptedCommandAppendsItsFrames :=
  fun w s _ h hok hcmd =>
    ⟨contents_commandTransaction h hok hcmd, length_framesOf s.params w, framesOf_head s.params⟩

end

namespace Sys2Proof.Machine

variable {s t : State}

/-! ### Ticks at the closed gate -/

theorem ticks_zero (lvl : Nat → Bool) : ticks 0 lvl = [] := rfl

/-- The first `j` of the ticks, then the others. -/
theorem ticks_add (j k : Nat) (lvl : Nat → Bool) :
    ticks (j + k) lvl = ticks j lvl ++ ticks k fun i => lvl (j + i) := by
  simp [ticks, List.range_add, Function.comp_def]

theorem ticks_succ (k : Nat) (lvl : Nat → Bool) :
    ticks (k + 1) lvl = Instant.ofTick (lvl 0) :: ticks k fun i => lvl (1 + i) := by
  rw [Nat.add_comm, ticks_add]
  rfl

/-- At the closed gate a tick is dropped (R210). -/
theorem tickTransaction_off (hoff : s.timerOn = false) (a : Bool) : tickTransaction a s = .next s := if_pos hoff

/-- So however many come, they are only taken from the ports (R210). -/
theorem run_ticks_off {k : Nat} {lvl : Nat → Bool} (hoff : s.timerOn = false) (harr : s.arrivals = ticks k lvl) :
    run k s = .next { s with arrivals := [], taken := s.taken + k } := by
  induction k generalizing s lvl with
  | zero => rw [run_zero, ← ticks_zero lvl, ← harr]; rfl
  | succ k ih =>
    rw [ticks_succ] at harr
    have hstep := (step_of_lone_tick harr rfl rfl rfl).trans
      (tickTransaction_off (s := { s with arrivals := ticks k fun i => lvl (1 + i), taken := s.taken + 1 }) hoff _)
    rw [run_succ_of_step k hstep]
    refine (ih (s := { s with arrivals := _, taken := s.taken + 1 }) hoff rfl).trans ?_
    simp only [Nat.add_assoc, Nat.add_comm 1 k]

/-! ### A queued frame, or one being sent -/

/-- Whatever there is to send, the timer is on (R36 item 3, R213). -/
theorem BlockInv.on_of_busy (h : BlockInv s) (hbusy : s.phase ≠ IDLE ∨ isEmpty s = false) : s.timerOn = true := by
  by_contra hoff
  obtain ⟨hidle, hempty⟩ := h.idle_when_off (Bool.not_eq_true _ ▸ hoff)
  rcases hbusy with hsending | hne
  · exact hsending hidle
  · exact nomatch hempty.symm.trans hne

/-! ### Every command presented may be the one taken -/

/-- Any of the commands presented is picked for some choice (R214, R243). -/
theorem exists_pick {r : Request} {rs : List Request} (h : r ∈ rs) : ∃ c, pick c rs = some r := by
  match rs with
  | [] => exact nomatch h
  | [r'] => exact ⟨0, congrArg some (List.mem_singleton.mp h).symm⟩
  | r1 :: r2 :: rs =>
    obtain ⟨c, hc, rfl⟩ := List.mem_iff_getElem.mp h
    have hmod : c % (rs.length + 2) = c := Nat.mod_eq_of_lt hc
    exact ⟨c, by rw [pick, hmod, List.getD_eq_getElem _ _ hc]⟩

end Sys2Proof.Machine

section
open Sys2Proof Sys2Proof.Machine

/-- Settles O33: the gate is tested before the micro-state is decoded, and a dropped tick leaves it closed. -/
theorem closedGateDropsTicks : Obligations.ClosedGateDropsTicks :=
  ⟨fun a _ hoff => tickTransaction_off hoff a, fun a _ _ hon hdec => tickTransaction_of_decodeMicro hon hdec a,
    fun _ _ _ => run_ticks_off⟩

/-- Settles O34: what is taken at an instant is read off case by case; of the commands presented `pick` takes one, and
each of them for some choice. -/
theorem simultaneousEventsAreOrdered : Obligations.SimultaneousEventsAreOrdered := by
  refine fun p i rest => ⟨fun hreset c => nextEvent_reset p c i rest hreset, ?taken, ?any,
    fun r _ => carry_commands ((i.issued p).erase r) rest, fun _ c => nextEvent_tick c rest⟩
  case taken =>
    intro hreset hissued c
    have hpick : pick c (ready (i.issued p)) ≠ none := by simpa using hissued
    obtain ⟨r, hr⟩ := Option.ne_none_iff_exists'.mp hpick
    exact ⟨r, mem_of_pick hr, nextEvent_command rest hreset hr⟩
  case any =>
    intro r hr hreset
    obtain ⟨c, hc⟩ := exists_pick hr
    exact ⟨c, nextEvent_command rest hreset hc⟩

/-- Settles O44: R36 item 3, which holds of every reachable state. -/
theorem noStrandedFrame : Obligations.NoStrandedFrame :=
  fun _ hreach hne => hreach.blockInv.on_of_busy (.inr hne)

end

namespace Sys2Proof.Machine

variable {s t : State}

/-! ### What a run keeps -/

/-- What every step keeps, every run keeps. -/
theorem run_keeps {P : State → Prop} (hstep : ∀ u v, P u → step u = .next v → P v) {k : Nat} (hs : P s)
    (hrun : run k s = .next t) : P t := by
  induction k generalizing s with
  | zero => exact Host.Outcome.next.inj hrun ▸ hs
  | succ k ih =>
    cases hu : step s with
    | next u => exact ih (hstep s u hs hu) ((run_succ_of_step k hu).symm.trans hrun)
    | fault r => simp [run, hu] at hrun
    | refused r => simp [run, hu] at hrun

theorem run_keeps_blockInv {k : Nat} (h : BlockInv s) (hrun : run k s = .next t) : BlockInv t :=
  run_keeps (fun _ _ => step_keeps_blockInv) h hrun

theorem run_params {k : Nat} (hrun : run k s = .next t) : t.params = s.params :=
  run_keeps (P := fun u => u.params = s.params) (fun _ _ hu hstep => (step_indexFrame hstep).params.trans hu) rfl hrun

/-! ### The queue frame by frame -/

/-- The drives of a frame do not depend on what is sampled (R149). -/
theorem filter_isDrive_frameEvents (bytes : List (Byte × Bool)) :
    (frameEvents bytes).filter Event.isDrive =
      (frameEvents (bytes.map fun x => (x.1, false))).filter Event.isDrive := by
  have hbyte (x : Byte) (a : Bool) :
      (byteEvents x a).filter Event.isDrive = (byteEvents x false).filter Event.isDrive := by
    cases a <;> rfl
  simp only [frameEvents, List.filter_append, List.filter_flatMap, List.flatMap_map, hbyte]

/-- What a frame puts on the wire is its drives, the samples apart (R148). -/
theorem filter_isDrive_wireBytes (f : Frame) (lvl : Nat → Bool) :
    (frameEvents (wireBytes f lvl)).filter Event.isDrive = f.drives := by
  have hbytes : (wireBytes f lvl).map (fun x => (x.1, false)) = f.payload.map fun x => (x, false) :=
    List.ext_getElem (by simp [wireBytes]) (by simp [wireBytes])
  rw [filter_isDrive_frameEvents, hbytes, Frame.drives]

theorem BlockInv.isEmpty_iff_contents (h : BlockInv s) : isEmpty s = true ↔ contents s = [] := by
  rw [isEmpty_iff_count h.queueOk, ← length_contents, List.length_eq_zero_iff]

/-- The first of the contents is the frame at `TAIL`; the others are the contents once `TAIL` has moved on. -/
theorem BlockInv.contents_cons (h : BlockInv s) {f : Frame} {fs : List Frame} (hfs : contents s = f :: fs) :
    isEmpty s = false ∧ s.q.read s.tail = some f ∧ contents { s with tail := inc s.params.n s.tail } = fs := by
  have hne : isEmpty s = false := Bool.eq_false_iff.mpr fun he => by simp [h.isEmpty_iff_contents.mp he] at hfs
  obtain ⟨g, hread, _⟩ := h.queueInv.oldest hne
  have hcons := contents_qDeq h (qDeq_written hne h.tail_lt hread)
  obtain ⟨rfl, hrest⟩ := List.cons.inj (hfs.symm.trans hcons)
  exact ⟨hne, hread, hrest.symm⟩

/-- With an empty queue in `IDLE` the timer is off (R36 item 4). -/
theorem BlockInv.off_of_isEmpty (h : BlockInv s) (hphase : s.phase = IDLE) (hempty : isEmpty s = true) :
    s.timerOn = false :=
  Bool.eq_false_iff.mpr fun hon => nomatch (h.isEmpty_of_on_idle hphase hon).symm.trans hempty

theorem drainTicks_cons (f : Frame) (fs : List Frame) :
    drainTicks (f :: fs) = (12 * f.len.toNat + 9) + drainTicks fs := by
  simp [drainTicks]

/-- Two runs end to end meet what holds before each of their steps. -/
theorem forall_run_add {P : State → Prop} {j k : Nat} (hrun : run j s = .next t)
    (hj : ∀ i < j, ∃ u, run i s = .next u ∧ P u) (hk : ∀ i < k, ∃ u, run i t = .next u ∧ P u) :
    ∀ i < j + k, ∃ u, run i s = .next u ∧ P u := by
  intro i hi
  by_cases hij : i < j
  · exact hj i hij
  · obtain ⟨u, hu, hP⟩ := hk (i - j) (by omega)
    refine ⟨u, ?_, hP⟩
    rw [← hu, ← run_add hrun, Nat.add_sub_cancel' (Nat.not_lt.mp hij)]

/-- The ticks of the first frame lead to `IDLE` with the other frames queued (R148). -/
theorem run_first_frame {f : Frame} {fs : List Frame} {lvl : Nat → Bool} {rest : List Instant} (h : BlockInv s)
    (hphase : s.phase = IDLE) (hfs : contents s = f :: fs)
    (harr : s.arrivals = ticks (12 * f.len.toNat + 9) lvl ++ rest) :
    ∃ t, run (12 * f.len.toNat + 9) s = .next t ∧ BlockInv t ∧ t.phase = IDLE ∧ contents t = fs ∧
      t.arrivals = rest ∧
      t.trace.filter Event.isDrive = s.trace.filter Event.isDrive ++ f.drives ∧
      (∀ k < 12 * f.len.toNat + 9, ∃ u, run k s = .next u ∧ u.timerOn = true) := by
  obtain ⟨hne, hread, hrest⟩ := h.contents_cons hfs
  obtain ⟨t, hrun, htrace, _, hidle, _, hhead, htail, hq, _, hleft, _, haccepted⟩ :=
    frameOnTheWire s f lvl rest h hphase hne hread harr
  have hcontents := contents_congr (s := { s with tail := inc s.params.n s.tail })
    (run_params (s := s) hrun) hhead htail hq
  refine ⟨t, hrun, run_keeps_blockInv h hrun, hidle, hcontents.trans hrest, hleft, ?_, fun k hk => ?_⟩
  · have hstop (p : Prop) [Decidable p] : (if p then [Event.tmrStop] else []).filter Event.isDrive = [] := by
      split_ifs <;> rfl
    rw [htrace, List.filter_append, List.filter_append, hstop, List.append_nil]
    exact congrArg _ (filter_isDrive_wireBytes f lvl)
  · obtain ⟨u, hu, hon, _⟩ := haccepted k hk
    exact ⟨u, hu, hon⟩

/-- The queue drains frame by frame, whatever its length (R215). -/
theorem run_drains {fs : List Frame} {lvl : Nat → Bool} {rest : List Instant} (h : BlockInv s)
    (hphase : s.phase = IDLE) (hfs : contents s = fs) (harr : s.arrivals = ticks (drainTicks fs) lvl ++ rest) :
    ∃ t, run (drainTicks fs) s = .next t ∧ t.phase = IDLE ∧ t.timerOn = false ∧ isEmpty t = true ∧
      t.arrivals = rest ∧
      t.trace.filter Event.isDrive = s.trace.filter Event.isDrive ++ fs.flatMap Frame.drives ∧
      (∀ k < drainTicks fs, ∃ u, run k s = .next u ∧ u.timerOn = true) := by
  induction fs generalizing s lvl with
  | nil =>
    have hempty := h.isEmpty_iff_contents.mpr hfs
    exact ⟨s, rfl, hphase, h.off_of_isEmpty hphase hempty, hempty, harr, (List.append_nil _).symm,
      fun k hk => absurd hk (Nat.not_lt_zero k)⟩
  | cons f fs ih =>
    rw [drainTicks_cons, ticks_add, List.append_assoc] at harr
    obtain ⟨u, hrun, hinv, hidle, hrest, hleft, hdrives, haccepted⟩ := run_first_frame h hphase hfs harr
    obtain ⟨t, hrunt, hidlet, hoff, hempty, hleftt, hdrivest, hacceptedt⟩ := ih hinv hidle hrest hleft
    rw [drainTicks_cons]
    refine ⟨t, (run_add hrun).trans hrunt, hidlet, hoff, hempty, hleftt, ?_,
      forall_run_add hrun haccepted hacceptedt⟩
    rw [hdrivest, hdrives, List.append_assoc, List.flatMap_cons]

end Sys2Proof.Machine

section
open Sys2Proof Sys2Proof.Machine

/-- Settles O55, by induction on the queued frames: each takes the ticks of R148 and leaves the others queued. -/
theorem queueDrainsInOrder : Obligations.QueueDrainsInOrder :=
  fun _ _ _ h hphase harr => run_drains h hphase rfl harr

end

namespace Sys2Proof.Machine

variable {w : CommandWord} {s t : State}

/-! ### A command that enqueues -/

/-- The queue after `Q_ENQ` or `Q_ENQ2` of frames that went in (R113, R114). -/
def Batch.push : Batch → State → State
  | .one f, s => s.pushed f
  | .two f1 f2, s => (s.pushed f1).pushed f2

theorem Batch.frames_injective {fs fs' : Batch} (h : fs.frames = fs'.frames) : fs = fs' := by
  match fs, fs', h with
  | .one _, .one _, rfl => rfl
  | .two _ _, .two _ _, rfl => rfl

/-- `SUBMIT` with room, whichever number of frames (R170). -/
theorem submit_free (h : QueueOk s) {fs : Batch} (hroom : fs.size ≤ free s) :
    submit fs s = .next (accepted s (fs.push s).q (fs.push s).head) := by
  cases fs with
  | one f => exact submit_one_free h hroom f
  | two f1 f2 => exact submit_two_free h hroom f1 f2

/-- The checks of a command word read the free slots alone (R84). -/
theorem expectedCode_congr (hfree : free t = free s) (w : CommandWord) : expectedCode w t = expectedCode w s := by
  simp only [expectedCode, hfree]

/-- A command that enqueues and answers `OK` hands `SUBMIT` its frames, for which there is room (R170, R182). -/
theorem commandTransaction_enqueues (h : QueueOk s) (hok : expectedCode w s = .ok) (hasks : 1 ≤ framesAsked w) :
    ∃ fs : Batch, framesOf s.params w = fs.frames ∧
      commandTransaction w s = .next (accepted s (fs.push s).q (fs.push s).head) := by
  obtain ⟨hbits, hlen, hroom⟩ := expectedCode_eq_ok_iff.mp hok
  obtain hnone | ⟨fs, hframes, hsub⟩ := commandTransaction_submits hbits hlen s
  · exact absurd hasks (hnone ▸ Nat.not_succ_le_zero 0)
  · have hsize : fs.size ≤ free s := by rwa [← Batch.length_frames, ← hframes, length_framesOf]
    exact ⟨fs, hframes, hsub.trans (submit_free h hsize)⟩

/-! ### The last tick and a command, in both orders -/

/-- In `DONE` the gate is open, and the tick is U_DONE (R36 item 3, R146). -/
theorem tickTransaction_done (h : BlockInv s) (hphase : s.phase = DONE) (a : Bool) :
    tickTransaction a s = exec .uDone { s with dioIn := a } := by
  have hsub : s.sub = 0 := by simpa [LegalPosition, hphase] using h.position
  have hrow : MicroRow s.phase s.sub .uDone := by rw [hphase, hsub]; exact .uDone
  have hon : s.timerOn = true := h.on_of_busy (.inl (hphase ▸ by decide))
  exact tickTransaction_of_decodeMicro hon (decodeMicro_of_microRow hrow) a

/-- The queue is not empty after a command that enqueued (R120). -/
theorem isEmpty_of_enqueued (h : BlockInv s) (hok : expectedCode w s = .ok) (hasks : 1 ≤ framesAsked w)
    (hcmd : commandTransaction w s = .next t) (ht : QueueOk t) : isEmpty t = false := by
  have hcount := count_commandTransaction h.queueOk hcmd
  rw [if_pos hok] at hcount
  refine Bool.eq_false_iff.mpr fun hempty => ?_
  have := (isEmpty_iff_count ht).mp hempty
  omega

/-- `s` after the tick of U_DONE that found the queue empty (R146). -/
def State.stopped (a : Bool) (s : State) : State :=
  { s with dioIn := a, phase := IDLE, sub := 0, timerOn := false, trace := s.trace ++ [.tmrStop] }

/-- `s` after the tick of U_DONE that found a frame queued (R146). -/
def State.resumed (a : Bool) (s : State) : State := { s with dioIn := a, phase := IDLE, sub := 0 }

theorem push_stopped (fs : Batch) (a : Bool) (s : State) :
    (fs.push (s.stopped a)).q = (fs.push s).q ∧ (fs.push (s.stopped a)).head = (fs.push s).head := by
  cases fs <;> exact ⟨rfl, rfl⟩

/-- The last tick, then the command: the timer stops and starts again (R211, R218). -/
theorem tick_then_command {a : Bool} {fs : Batch} (h : BlockInv s) (hphase : s.phase = DONE)
    (hempty : isEmpty s = true) (hok : expectedCode w s = .ok) (hasks : 1 ≤ framesAsked w)
    (hfs : framesOf s.params w = fs.frames) :
    tickTransaction a s = .next (s.stopped a) ∧
    commandTransaction w (s.stopped a) = .next (accepted (s.stopped a) (fs.push s).q (fs.push s).head) := by
  refine ⟨(tickTransaction_done h hphase a).trans (exec_uDone_empty hempty), ?_⟩
  have hok' : expectedCode w (s.stopped a) = .ok := (expectedCode_congr (free_congr rfl rfl rfl) w).trans hok
  obtain ⟨fs', hfs', hcmd⟩ := commandTransaction_enqueues (s := s.stopped a) h.queueOk hok' hasks
  obtain rfl := Batch.frames_injective (hfs'.symm.trans hfs)
  obtain ⟨hq, hhead⟩ := push_stopped fs' a s
  rw [hcmd, hq, hhead]

/-- The command, then the last tick, which finds the queue not empty (R146, R218). -/
theorem command_then_tick {a : Bool} (h : BlockInv s) (hphase : s.phase = DONE) (hok : expectedCode w s = .ok)
    (hasks : 1 ≤ framesAsked w) (hcmd : commandTransaction w s = .next t) :
    tickTransaction a t = .next (t.resumed a) := by
  obtain ⟨_, hnext, ht⟩ := commandTransaction_leadsToInv h w
  obtain rfl := Host.Outcome.next.inj (hnext.symm.trans hcmd)
  have hne := isEmpty_of_enqueued h hok hasks hcmd ht.queueOk
  have hphase' := (commandTransaction_commandFrame hcmd).phase.trans hphase
  exact (tickTransaction_done ht hphase' a).trans (exec_uDone_queued hne)

end Sys2Proof.Machine

section
open Sys2Proof Sys2Proof.Machine

/-- Settles O51: both orders end in `IDLE` with the command's frames written to the same slots; WAKE restarts the timer
in the one, and U_DONE leaves it on in the other. -/
theorem raceOrdersAgree : Obligations.RaceOrdersAgree := by
  intro s a w h hphase hon hempty hok hasks
  obtain ⟨fs, hfs, hcmd⟩ := commandTransaction_enqueues h.queueOk hok hasks
  obtain ⟨hstop, hcmd'⟩ := tick_then_command (a := a) h hphase hempty hok hasks hfs
  have hresume := command_then_tick (a := a) h hphase hok hasks hcmd
  have hcontents := contents_commandTransaction h.queueOk hok hcmd
  rw [h.isEmpty_iff_contents.mp hempty] at hcontents
  refine ⟨_, _, _, _, hstop, hcmd', hcmd, hresume, ?_, ?_, ?_, rfl, rfl, hcontents⟩
  · simp [State.stopped]
  · simp [State.resumed, hon]
  · simp [State.stopped, State.resumed, accepted, hon]

end

namespace Sys2Proof.Machine

variable {s t : State}

/-! ### Instants without a RESET -/

/-- No RESET is asserted at any of these instants. -/
def NoReset (is : List Instant) : Prop := ∀ i ∈ is, i.reset = false

theorem carry_noReset {is : List Instant} (rs : List Request) (h : NoReset is) : NoReset (carry rs is) := by
  match rs, is with
  | [], _ => exact h
  | _ :: _, [] => simp [carry, NoReset]
  | _ :: _, _ :: _ => exact List.forall_mem_cons.mpr (List.forall_mem_cons.mp h)

/-- Where no RESET is asserted none is taken, and none is left (R214). -/
theorem nextEvent_noReset {p : Params} {c : Nat} {is rest : List Instant} {e : PortEvent} (h : NoReset is)
    (hnext : nextEvent p c is = some (e, rest)) : e ≠ .reset ∧ NoReset rest := by
  induction is with
  | nil => exact nomatch hnext
  | cons i is ih =>
    obtain ⟨hi, his⟩ := List.forall_mem_cons.mp h
    cases hpick : pick c (ready (i.issued p)) with
    | some r =>
      rw [nextEvent_command is hi hpick] at hnext
      cases hnext
      exact ⟨nofun, List.forall_mem_cons.mpr ⟨hi, carry_noReset _ his⟩⟩
    | none =>
      have hissued : i.issued p = [] := by simpa using hpick
      cases htick : i.tick with
      | some a =>
        rw [nextEvent_tick c is hi hissued htick] at hnext
        cases hnext
        exact ⟨nofun, his⟩
      | none =>
        simp only [nextEvent, hi, hpick, htick] at hnext
        exact ih his hnext

/-! ### The strobes of a transaction -/

@[simp] theorem strobes_append (es es' : List Event) : strobes (es ++ es') = strobes es ++ strobes es' :=
  List.filterMap_append

/-- From `s` to `t` the trace grows by events with one strobe for a change of `TIMER_ON`, to its new value, and none
without (R15, R16). -/
def Strobed (s t : State) : Prop :=
  ∃ es, t.trace = s.trace ++ es ∧ strobes es = if t.timerOn = s.timerOn then [] else [t.timerOn]

theorem Strobed.of_eq (htrace : t.trace = s.trace) (hon : t.timerOn = s.timerOn) : Strobed s t :=
  ⟨[], htrace.trans (List.append_nil _).symm, (if_pos hon).symm⟩

/-- WAKE starts the timer only where it is off (R211). -/
theorem wake_strobed (s : State) : Strobed s (wake s) := by
  by_cases hwake : s.phase = IDLE ∧ s.timerOn = false
  · exact ⟨[.tmrStart], by simp [hwake], by simp [hwake, strobes]⟩
  · have hsame : wake s = s := if_neg hwake
    exact .of_eq (congrArg State.trace hsame) (congrArg State.timerOn hsame)

theorem enqueue_trace_timerOn {fs : Batch} {b : Bool} (h : fs.enqueue s = .ok (b, t)) :
    t.trace = s.trace ∧ t.timerOn = s.timerOn := by
  cases fs with
  | one f => obtain ⟨_, _, rfl⟩ | ⟨_, _, _, rfl⟩ := qEnq_cases h <;> exact ⟨rfl, rfl⟩
  | two f1 f2 => obtain ⟨_, _, rfl⟩ | ⟨_, _, _, _, rfl⟩ := qEnq2_cases h <;> exact ⟨rfl, rfl⟩

theorem submit_strobed {fs : Batch} (hsub : submit fs s = .next t) : Strobed s t := by
  obtain rfl | ⟨u, henq, rfl⟩ := submit_next_cases hsub
  · exact .of_eq rfl rfl
  · obtain ⟨htrace, hon⟩ := enqueue_trace_timerOn henq
    have hwake := wake_strobed u
    rwa [Strobed, htrace, hon] at hwake

/-- Of the commands only those that enqueue have strobes (R212). -/
theorem commandTransaction_strobed {w : CommandWord} (hcmd : commandTransaction w s = .next t) : Strobed s t := by
  have hframe := commandTransaction_commandFrame hcmd
  have hchecked := commandTransaction_checkedAnswer w s
  rw [hcmd] at hchecked
  generalize hans : Host.Outcome.next t = a at hchecked
  cases hchecked with
  | illegal | length =>
    obtain rfl := Host.Outcome.next.inj hans
    exact .of_eq rfl rfl
  | frames => exact submit_strobed hans.symm
  | read _ _ hnone =>
    obtain ⟨_, _, hon, htrace⟩ := hframe.queue hnone
    exact .of_eq htrace hon

/-- No micro-step but U_DONE has a strobe (R132 to R145). -/
theorem strobes_microEvents {i : Instr} (hi : i ≠ .uDone) (s : State) : strobes (microEvents s i) = [] := by
  cases i with
  | uDone => exact absurd rfl hi
  | _ => rfl

/-- U_DONE stops a timer that is on (R146). -/
theorem exec_micro_strobed {i : Instr} (hi : isMicroStep i = true) (hon : s.timerOn = true)
    (hexec : exec i s = .next t) : Strobed s t := by
  by_cases hdone : i = .uDone
  · subst hdone
    obtain ⟨_, rfl⟩ | ⟨_, rfl⟩ := execUDone_cases hexec
    · exact ⟨[.tmrStop], rfl, by simp [hon, strobes]⟩
    · exact .of_eq rfl rfl
  · have htimer := (exec_microFrame hi hexec).timerOn hdone
    exact ⟨_, exec_trace hi hexec, by rw [strobes_microEvents hdone, if_pos htimer]⟩

/-- A tick has its strobe at the open gate alone (R210). -/
theorem tickTransaction_strobed {a : Bool} (htick : tickTransaction a s = .next t) :
    Strobed s t ∧ t.arrivals = s.arrivals := by
  obtain ⟨_, hdrop⟩ | ⟨hon, i, hdec, hexec⟩ | ⟨_, _, _, hfault⟩ := tickTransaction_cases a s
  · obtain rfl := Host.Outcome.next.inj (hdrop.symm.trans htick)
    exact ⟨.of_eq rfl rfl, rfl⟩
  · have hi := isMicroStep_of_microRow (microRow_of_microState hdec)
    have hnext := hexec.symm.trans htick
    exact ⟨exec_micro_strobed (s := { s with dioIn := a }) hi hon hnext, (exec_microFrame hi hnext).arrivals⟩
  · exact nomatch hfault.symm.trans htick

theorem transact_strobed {e : PortEvent} (he : e ≠ .reset) (htrans : transact e s = .next t) :
    Strobed s t ∧ t.arrivals = s.arrivals := by
  cases e with
  | reset => exact absurd rfl he
  | command r =>
    exact ⟨commandTransaction_strobed (s := { s with issuers := s.issuers ++ [r.producer] }) htrans,
      (commandTransaction_commandFrame htrans).arrivals⟩
  | tick a => exact tickTransaction_strobed htrans

theorem step_strobed (hno : NoReset s.arrivals) (hstep : step s = .next t) : Strobed s t ∧ NoReset t.arrivals := by
  obtain ⟨_, rfl⟩ | ⟨e, rest, hup, htrans⟩ := step_cases hstep
  · exact ⟨.of_eq rfl rfl, hno⟩
  · obtain ⟨he, hrest⟩ := nextEvent_noReset hno hup
    obtain ⟨hstrobed, harr⟩ := transact_strobed he htrans
    exact ⟨hstrobed, harr ▸ hrest⟩

/-! ### The strobes of a run -/

/-- The strobes alternate, `TmrStart` first, and leave the timer at `on` (R216). -/
def Alternating (es : List Event) (on : Bool) : Prop :=
  strobes es = (List.range (strobes es).length).map (fun j => decide (j % 2 = 0)) ∧
  on = decide ((strobes es).length % 2 = 1)

theorem alternating_nil : Alternating [] false := ⟨rfl, rfl⟩

/-- A strobe for each change of the timer keeps the alternation. -/
theorem Alternating.append {es es' : List Event} {on on' : Bool} (h : Alternating es on)
    (hes' : strobes es' = if on' = on then [] else [on']) : Alternating (es ++ es') on' := by
  obtain ⟨hes, hon⟩ := h
  rw [Alternating, strobes_append, hes']
  split_ifs with hsame
  · rw [List.append_nil, hsame]
    exact ⟨hes, hon⟩
  · have hnew : on' = decide ((strobes es).length % 2 = 0) := by
      rw [Bool.eq_not.mpr hsame, hon, ← decide_not, decide_eq_decide]
      omega
    rw [List.length_append, List.length_singleton, List.range_succ, List.map_append, List.map_singleton, ← hes,
      ← hnew]
    refine ⟨rfl, hnew.trans (decide_eq_decide.mpr ?_)⟩
    omega

/-- From `s` with the timer off to `t` the strobes have alternated, and no RESET is to come. -/
structure AlternatedSince (s t : State) : Prop where
  strobes : ∃ es, t.trace = s.trace ++ es ∧ Alternating es t.timerOn
  noReset : NoReset t.arrivals

theorem AlternatedSince.step {u : State} (h : AlternatedSince s t) (hstep : step t = .next u) :
    AlternatedSince s u := by
  obtain ⟨⟨es, htrace, halt⟩, hno⟩ := h
  obtain ⟨⟨es', htrace', hes'⟩, hno'⟩ := step_strobed hno hstep
  exact ⟨⟨es ++ es', by rw [htrace', htrace, List.append_assoc], halt.append hes'⟩, hno'⟩

end Sys2Proof.Machine

section
open Sys2Proof Sys2Proof.Machine

/-- Settles O50: each step has a strobe exactly when it changes `TIMER_ON`, and a run puts them one after the other. -/
theorem timerStrobesAlternate : Obligations.TimerStrobesAlternate := by
  intro k s t _ hoff hno hrun
  have hstart : AlternatedSince s s := ⟨⟨[], (List.append_nil _).symm, hoff ▸ alternating_nil⟩, hno⟩
  exact (run_keeps (fun _ _ h hstep => h.step hstep) hstart hrun).strobes

end

namespace Sys2Proof.Machine

variable {r r' : Request} {rs : List Request}

/-! ### What the producers present (R243) -/

/-- The producers of a block are numbered from 0 to `NPROD` - 1 (R6). -/
theorem hasProducer_iff {p : Params} {k : Nat} (h : p.Legal) : p.hasProducer k = true ↔ k < p.nprod := by
  obtain ⟨_, _, hnprod⟩ := h
  simp only [Params.hasProducer, Bool.or_eq_true, beq_iff_eq, decide_eq_true_eq]
  omega

theorem mem_issued {p : Params} {i : Instant} :
    r ∈ i.issued p ↔ r ∈ i.commands ∧ p.hasProducer r.producer = true := List.mem_filter

/-- What is presented: the first command issued, and of the others those of other producers. -/
theorem mem_ready_cons :
    r ∈ ready (r' :: rs) ↔ r = r' ∨ r ∈ ready rs ∧ r.producer ≠ r'.producer := by
  simp [ready]

/-- No producer presents two commands. -/
theorem nodup_producer_ready : ∀ rs : List Request, ((ready rs).map Request.producer).Nodup
  | [] => List.nodup_nil
  | r :: rs => by
    refine List.nodup_cons.mpr ⟨?other, (nodup_producer_ready rs).sublist (List.filter_sublist.map _)⟩
    case other => simp

/-- What a producer presents is its oldest command. -/
theorem find?_of_mem_ready (h : r ∈ ready rs) : rs.find? (fun r' => r'.producer == r.producer) = some r := by
  induction rs with
  | nil => exact nomatch h
  | cons r' rs ih =>
    obtain rfl | ⟨hready, hne⟩ := mem_ready_cons.mp h
    · exact List.find?_cons_of_pos (beq_self_eq_true _)
    · rw [List.find?_cons_of_neg (by simpa using hne.symm)]
      exact ih hready

/-- Each producer with a command presents one. -/
theorem exists_mem_ready (h : r ∈ rs) : ∃ r' ∈ ready rs, r'.producer = r.producer := by
  induction rs with
  | nil => exact nomatch h
  | cons r₁ rs ih =>
    by_cases hfirst : r₁.producer = r.producer
    · exact ⟨r₁, mem_ready_cons.mpr (.inl rfl), hfirst⟩
    · obtain ⟨r', hr', hsame⟩ := ih ((List.mem_cons.mp h).resolve_left fun heq => hfirst (heq ▸ rfl))
      exact ⟨r', mem_ready_cons.mpr (.inr ⟨hr', hsame ▸ Ne.symm hfirst⟩), hsame⟩

end Sys2Proof.Machine

section
open Sys2Proof Sys2Proof.Machine

/-- Settles O35: `ready` keeps the first command of each producer, and only what the `NPROD` producers issue comes to
it. -/
theorem eachProducerPresentsItsOldestCommand : Obligations.EachProducerPresentsItsOldestCommand := by
  refine ⟨fun rs => ⟨nodup_producer_ready rs, fun r => find?_of_mem_ready, fun r => exists_mem_ready⟩,
    fun p i hp => ⟨fun r hr => ?only, fun r hr hlt => exists_mem_ready ?issues⟩⟩
  case only =>
    obtain ⟨_, hproducer⟩ := mem_issued.mp (mem_of_mem_ready hr)
    exact (hasProducer_iff hp).mp hproducer
  case issues => exact mem_issued.mpr ⟨hr, (hasProducer_iff hp).mpr hlt⟩

end

namespace Sys2Proof.Machine

variable {s t : State} {r : Request}

/-! ### What is answered, and to whom (R242) -/

/-- A tick, dropped or accepted, answers nobody. -/
theorem tickTransaction_answers_none {a : Bool} (h : tickTransaction a s = .next t) :
    t.arrivals = s.arrivals ∧ t.issuers = s.issuers ∧ t.responses = s.responses := by
  obtain ⟨_, hdrop⟩ | ⟨_, i, hdec, hexec⟩ | ⟨_, _, _, hfault⟩ := tickTransaction_cases a s
  · obtain rfl := Host.Outcome.next.inj (hdrop.symm.trans h)
    exact ⟨rfl, rfl, rfl⟩
  · have hframe := exec_microFrame (isMicroStep_of_microRow (microRow_of_microState hdec)) (hexec.symm.trans h)
    exact ⟨hframe.arrivals, hframe.issuers, hframe.responses⟩
  · exact nomatch hfault.symm.trans h

/-- What is no command answers nobody. -/
theorem transact_answers_none {e : PortEvent} (he : ∀ r, e ≠ .command r) (h : transact e s = .next t) :
    t.arrivals = s.arrivals ∧ t.issuers = s.issuers ∧ t.responses = s.responses := by
  cases e with
  | reset =>
    obtain rfl := Host.Outcome.next.inj h
    exact ⟨rfl, rfl, rfl⟩
  | command r => exact absurd rfl (he r)
  | tick a => exact tickTransaction_answers_none h

/-- A step that takes an event is its transaction, with what is left at the ports. -/
theorem transact_of_step {e : PortEvent} {rest : List Instant} (hup : upcoming s = some (e, rest))
    (hstep : step s = .next t) : transact e { s with arrivals := rest, taken := s.taken + 1 } = .next t := by
  rwa [step, hup] at hstep

/-- A step that takes a command answers it once, to its issuer. -/
theorem step_answers_command {rest : List Instant} (hup : upcoming s = some (.command r, rest))
    (hstep : step s = .next t) :
    t.arrivals = rest ∧ t.issuers = s.issuers ++ [r.producer] ∧ ∃ x, t.responses = s.responses ++ [x] :=
  have hframe := commandTransaction_commandFrame (transact_of_step hup hstep)
  ⟨hframe.arrivals, hframe.issuers, hframe.answer⟩

/-- A step that takes another event answers nobody. -/
theorem step_answers_none {e : PortEvent} {rest : List Instant} (hup : upcoming s = some (e, rest))
    (he : ∀ r, e ≠ .command r) (hstep : step s = .next t) :
    t.arrivals = rest ∧ t.issuers = s.issuers ∧ t.responses = s.responses :=
  transact_answers_none he (transact_of_step hup hstep)

end Sys2Proof.Machine

section
open Sys2Proof Sys2Proof.Machine

/-- Settles O37: each command transaction answers once and no other does; the record is written beside the answer. -/
theorem eachCommandIsAnsweredToItsIssuer : Obligations.EachCommandIsAnsweredToItsIssuer := by
  refine fun s t hstep => ⟨fun r rest hup => ?command, fun hnone => ?other⟩
  case command =>
    obtain ⟨_, hissuers, x, hresp⟩ := step_answers_command hup hstep
    exact ⟨x, hissuers, hresp⟩
  case other =>
    obtain ⟨_, rfl⟩ | ⟨e, rest, hup, _⟩ := step_cases hstep
    · exact ⟨rfl, rfl⟩
    · obtain ⟨_, hanswers⟩ := step_answers_none hup (fun r he => hnone r rest (he ▸ hup)) hstep
      exact hanswers

end

namespace Sys2Proof.Machine

variable {r : Request} {rs : List Request} {k : Nat}

/-! ### The commands of one producer that wait (R72, R267) -/

/-- The words of one producer among these requests, in their order. -/
def wordsOf (k : Nat) (rs : List Request) : List CommandWord :=
  (rs.filter fun r => r.producer == k).map Request.word

theorem issuedBy_cons (k : Nat) (i : Instant) (is : List Instant) :
    issuedBy k (i :: is) = wordsOf k i.commands ++ issuedBy k is := by
  simp [issuedBy, wordsOf]

theorem issuedBy_carry (k : Nat) (rs : List Request) (is : List Instant) :
    issuedBy k (carry rs is) = wordsOf k rs ++ issuedBy k is := by
  simp [issuedBy, wordsOf, carry_commands]

/-- Of a producer that there is, everything at an instant is issued (R243). -/
theorem wordsOf_issued {p : Params} (hk : p.hasProducer k = true) (i : Instant) :
    wordsOf k (i.issued p) = wordsOf k i.commands := by
  have hboth (r : Request) : (r.producer == k && p.hasProducer r.producer) = (r.producer == k) := by
    by_cases hr : r.producer = k <;> simp [hr, hk]
  simp only [wordsOf, Instant.issued, List.filter_filter, hboth]

/-- Taking a command that is presented takes the oldest one of its producer and none of another's. -/
theorem wordsOf_erase_of_mem_ready (h : r ∈ ready rs) (k : Nat) :
    wordsOf k rs = (if r.producer = k then [r.word] else []) ++ wordsOf k (rs.erase r) := by
  rw [wordsOf, wordsOf, ← List.erase_filter]
  split_ifs with hk
  · subst hk
    have hhead := List.head?_filter.trans (find?_of_mem_ready h)
    obtain ⟨later, hlater⟩ := List.head?_eq_some_iff.mp hhead
    rw [hlater, List.erase_cons_head]
    rfl
  · rw [List.erase_of_not_mem (by simp [hk])]
    rfl

/-- The word that producer `k` has in an event. -/
def PortEvent.wordsOf (k : Nat) : PortEvent → List CommandWord
  | .command r => if r.producer = k then [r.word] else []
  | _ => []

/-- The next event takes the oldest word of its producer, if it is a command, and leaves what waits behind it. -/
theorem issuedBy_of_nextEvent {p : Params} {c : Nat} {is rest : List Instant} {e : PortEvent}
    (hk : p.hasProducer k = true) (hnext : nextEvent p c is = some (e, rest)) :
    issuedBy k is = e.wordsOf k ++ issuedBy k rest := by
  induction is with
  | nil => exact nomatch hnext
  | cons i is ih =>
    by_cases hreset : i.reset = true
    · rw [nextEvent_reset p c i is hreset] at hnext
      cases hnext
      simp [issuedBy_cons, PortEvent.wordsOf]
    · have hreset := Bool.not_eq_true _ ▸ hreset
      rw [issuedBy_cons, ← wordsOf_issued hk]
      cases hpick : pick c (ready (i.issued p)) with
      | some r =>
        rw [nextEvent_command is hreset hpick] at hnext
        cases hnext
        rw [wordsOf_erase_of_mem_ready (mem_of_pick hpick), issuedBy_cons, issuedBy_carry, List.append_assoc]
        rfl
      | none =>
        have hissued : i.issued p = [] := by simpa using hpick
        rw [hissued]
        cases htick : i.tick with
        | some a =>
          rw [nextEvent_tick c is hreset hissued htick] at hnext
          cases hnext
          rfl
        | none =>
          simp only [nextEvent, hreset, hpick, htick] at hnext
          exact ih hnext

end Sys2Proof.Machine

section
open Sys2Proof Sys2Proof.Machine

/-- Settles O36: a step takes from what waits the word that its event has, and its transaction leaves the ports
alone. -/
theorem eachProducersOrderIsKept : Obligations.EachProducersOrderIsKept := by
  intro s t hstep k hk
  obtain ⟨hup, rfl⟩ | ⟨e, rest, hup, _⟩ := step_cases hstep
  · exact .inr ⟨by simp [hup], .inl rfl, rfl⟩
  have hwords := issuedBy_of_nextEvent hk hup
  cases e with
  | command r =>
    obtain ⟨rfl, hissuers, _⟩ := step_answers_command hup hstep
    by_cases hr : r.producer = k
    · subst hr
      exact .inl ⟨r.word, _, hup, hissuers, by simpa [PortEvent.wordsOf] using hwords⟩
    · refine .inr ⟨?_, .inr ⟨r.producer, hr, hissuers⟩, by simpa [PortEvent.wordsOf, hr] using hwords.symm⟩
      rintro w left hup'
      cases hup.symm.trans hup'
      exact hr rfl
  | reset | tick =>
    obtain ⟨rfl, hissuers, _⟩ := step_answers_none hup (fun _ he => nomatch he) hstep
    exact .inr ⟨by simp [hup], .inl hissuers, hwords.symm⟩

end

namespace Sys2Proof.Machine

variable {w : CommandWord} {s t : State}

/-! ### The edges of `TIMER_ON` (R212, R245) -/

/-- `SUBMIT` leaves the timer as it is, or its frames went in and it started the timer (R170, R211). -/
theorem submit_timer {fs : Batch} (h : submit fs s = .next t) :
    t.timerOn = s.timerOn ∨
    (fs.size ≤ free s ∧ s.timerOn = false ∧ t.timerOn = true ∧ t.trace = s.trace ++ [.tmrStart]) := by
  by_cases hfull : free s < fs.size
  · obtain rfl := Host.Outcome.next.inj ((submit_full hfull).symm.trans h)
    exact .inl rfl
  obtain rfl | ⟨u, henq, rfl⟩ := submit_next_cases h
  · exact .inl rfl
  · obtain ⟨htrace, hon⟩ := enqueue_trace_timerOn henq
    by_cases hwake : u.phase = IDLE ∧ u.timerOn = false
    · obtain ⟨hidle, hoff⟩ := hwake
      exact .inr ⟨Nat.not_lt.mp hfull, hon ▸ hoff, by simp [hidle], by simp [hidle, hoff, htrace]⟩
    · have hsame : wake u = u := if_neg hwake
      exact .inl (by rw [State.respond_timerOn, hsame, hon])

/-- A command leaves the timer as it is, or it enqueued and started the timer (R211). -/
theorem commandTransaction_timer (h : commandTransaction w s = .next t) :
    t.timerOn = s.timerOn ∨
    (expectedCode w s = .ok ∧ 1 ≤ framesAsked w ∧
      s.timerOn = false ∧ t.timerOn = true ∧ t.trace = s.trace ++ [.tmrStart]) := by
  have hframe := commandTransaction_commandFrame h
  have hchecked := commandTransaction_checkedAnswer w s
  rw [h] at hchecked
  generalize hans : Host.Outcome.next t = a at hchecked
  cases hchecked with
  | illegal | length =>
    obtain rfl := Host.Outcome.next.inj hans
    exact .inl rfl
  | @frames hbits hlen fs hsize =>
    refine (submit_timer hans.symm).imp_right fun ⟨hroom, hedge⟩ =>
      ⟨expectedCode_eq_ok_iff.mpr ⟨hbits, hlen, hsize ▸ hroom⟩, ?asks, hedge⟩
    case asks => cases fs <;> simp [hsize, Batch.size]
  | read _ _ hnone =>
    obtain ⟨_, _, hon, _⟩ := hframe.queue hnone
    exact .inl hon

/-- A micro-step leaves the timer as it is, or it is U_DONE on an empty queue and stopped the timer (R146). -/
theorem exec_micro_timer {i : Instr} (hi : isMicroStep i = true) (h : exec i s = .next t) :
    t.timerOn = s.timerOn ∨
    (i = .uDone ∧ isEmpty s = true ∧ t.timerOn = false ∧ t.trace = s.trace ++ [.tmrStop]) := by
  by_cases hdone : i = .uDone
  · subst hdone
    obtain ⟨hempty, rfl⟩ | ⟨_, rfl⟩ := execUDone_cases h
    · exact .inr ⟨rfl, hempty, rfl, rfl⟩
    · exact .inl rfl
  · exact .inl ((exec_microFrame hi h).timerOn hdone)

/-- The row of U_DONE is the one in the phase `DONE` (R100). -/
theorem done_of_microRow_uDone {p : BitVec 3} {k : BitVec 4} (h : MicroRow p k .uDone) : p = DONE ∧ k = 0 := by
  cases h
  exact ⟨rfl, rfl⟩

/-- A tick leaves the timer as it is, or it was taken in `DONE` with an empty queue and stopped the timer. -/
theorem tickTransaction_timer {a : Bool} (h : tickTransaction a s = .next t) :
    t.timerOn = s.timerOn ∨
    (s.phase = DONE ∧ s.sub = 0 ∧ isEmpty s = true ∧ t.timerOn = false ∧ t.trace = s.trace ++ [.tmrStop]) := by
  obtain ⟨_, hdrop⟩ | ⟨_, i, hdec, hexec⟩ | ⟨_, _, _, hfault⟩ := tickTransaction_cases a s
  · obtain rfl := Host.Outcome.next.inj (hdrop.symm.trans h)
    exact .inl rfl
  · have hrow := microRow_of_microState hdec
    refine (exec_micro_timer (isMicroStep_of_microRow hrow) (hexec.symm.trans h)).imp_right ?_
    rintro ⟨rfl, hedge⟩
    obtain ⟨hphase, hsub⟩ := done_of_microRow_uDone hrow
    exact ⟨hphase, hsub, hedge⟩
  · exact nomatch hfault.symm.trans h

/-- What a transaction does to the timer: nothing, the start by a command that enqueued, the stop by U_DONE on an
empty queue, or the stop by a RESET, which is no event of the trace (R260). -/
inductive TimerEdge (s t : State) : PortEvent → Prop
  | none {e : PortEvent} (hsame : t.timerOn = s.timerOn) : TimerEdge s t e
  | start {r : Request} (hok : expectedCode r.word s = .ok) (hasks : 1 ≤ framesAsked r.word)
      (hoff : s.timerOn = false) (hon : t.timerOn = true) (htrace : t.trace = s.trace ++ [.tmrStart]) :
      TimerEdge s t (.command r)
  | done {a : Bool} (hphase : s.phase = DONE) (hsub : s.sub = 0) (hempty : isEmpty s = true)
      (hoff : t.timerOn = false) (htrace : t.trace = s.trace ++ [.tmrStop]) : TimerEdge s t (.tick a)
  | reset (hoff : t.timerOn = false) (htrace : t.trace = s.trace) : TimerEdge s t .reset

theorem transact_timerEdge {e : PortEvent} (h : transact e s = .next t) : TimerEdge s t e := by
  cases e with
  | reset =>
    obtain rfl := Host.Outcome.next.inj h
    exact .reset rfl rfl
  | command r =>
    obtain hsame | ⟨hok, hasks, hoff, hon, htrace⟩ := commandTransaction_timer h
    · exact .none hsame
    · exact .start hok hasks hoff hon htrace
  | tick a =>
    obtain hsame | ⟨hphase, hsub, hempty, hoff, htrace⟩ := tickTransaction_timer h
    · exact .none hsame
    · exact .done hphase hsub hempty hoff htrace

/-- A step that changes the timer took an event with that edge. -/
theorem step_timerEdge (hstep : step s = .next t) (hchange : t.timerOn ≠ s.timerOn) :
    ∃ e rest, upcoming s = some (e, rest) ∧ TimerEdge { s with arrivals := rest, taken := s.taken + 1 } t e := by
  obtain ⟨_, rfl⟩ | ⟨e, rest, hup, htrans⟩ := step_cases hstep
  · exact absurd rfl hchange
  · exact ⟨e, rest, hup, transact_timerEdge htrans⟩

end Sys2Proof.Machine

section
open Sys2Proof Sys2Proof.Machine

/-- Settles O49: an edge of the timer is one of the three that a transaction can have, and only one of them turns it
on. -/
theorem timerTurnsOnAndOffAsStated : Obligations.TimerTurnsOnAndOffAsStated := by
  refine ⟨fun s t _ hstep hoff hon => ?on, fun s t hstep hon hoff => ?off, fun a s hoff => tickTransaction_off hoff a⟩
  case on =>
    obtain ⟨e, rest, hup, hedge⟩ := step_timerEdge hstep (by simp [hoff, hon])
    cases hedge with
    | none hsame => exact nomatch hon.symm.trans (hsame.trans hoff)
    | start hok hasks _ _ htrace => exact ⟨_, rest, hup, hok, hasks, htrace⟩
    | done _ _ _ hoff' | reset hoff' => exact nomatch hon.symm.trans hoff'
  case off =>
    obtain ⟨e, rest, hup, hedge⟩ := step_timerEdge hstep (by simp [hoff, hon])
    cases hedge with
    | none hsame => exact nomatch hoff.symm.trans (hsame.trans hon)
    | start _ _ _ hon' => exact nomatch hoff.symm.trans hon'
    | done hphase hsub hempty _ htrace => exact .inr ⟨_, rest, hup, hphase, hsub, hempty, htrace⟩
    | reset _ htrace => exact .inl ⟨rest, hup, htrace⟩

end

namespace Sys2Proof.Machine

/-! ### What STATUS shows of a RESET and of the end of sending -/

theorem status_empty (s : State) : (status s).getLsbD 3 = isEmpty s := by
  rw [status_getLsbD]
  rfl

theorem status_timerOn (s : State) : (status s).getLsbD 5 = s.timerOn := by
  rw [status_getLsbD]
  rfl

/-- `STATUS` reads only registers to which a RESET gives the value that they have after power-up (R35, R260). -/
theorem status_resetTransaction {s : State} (hp : s.params.Legal) : status (resetTransaction s) = 0x00000048 :=
  calc
    status (resetTransaction s) = status (State.boot s.params s.arrivals) := rfl
    _ = 0x00000048 := status_boot hp s.arrivals

end Sys2Proof.Machine

section
open Sys2Proof Sys2Proof.Machine

/-- Settles O52: with `TIMER_ON` = 0 the block is in `IDLE` (R36 item 3), where both lines are high; with `EMPTY` = 1
there are no contents. -/
theorem statusEmptyAndOffMeansDone : Obligations.StatusEmptyAndOffMeansDone := by
  intro s hreach hempty hoff
  rw [status_empty] at hempty
  rw [status_timerOn] at hoff
  have h := hreach.blockInv
  obtain ⟨hidle, _⟩ := h.idle_when_off hoff
  obtain ⟨hhigh, _⟩ := h.lines
  exact ⟨hidle, h.isEmpty_iff_contents.mp hempty, hhigh (.inl hidle)⟩

/-- Settles O38: the registers hold what the transaction writes (R260), and STAT answers the `STATUS` made of them. -/
theorem resetSetsTheResetValues : Obligations.ResetSetsTheResetValues := by
  intro s
  have hstat (hp : s.params.Legal) :
      exec .stat (resetTransaction s) = .next (answered (resetTransaction s) 0x00000048) := by
    rw [exec_stat, status_resetTransaction hp]
  exact ⟨resetTransaction s, rfl, by simpa using hstat⟩

end

namespace Sys2Proof.Machine

variable {s : State}

/-! ### Where a form stops by name (log entries 5 and 6) -/

theorem memWrite_of_le {i : Nat} (h : s.params.n ≤ i) (f : Frame) : memWrite i f s = .error .noSuchSlot :=
  if_neg h.not_gt

theorem memRead_of_le {i : Nat} (h : s.params.n ≤ i) : memRead i s = .error .noSuchSlot := if_neg h.not_gt

theorem qDeq_of_le_tail (hne : isEmpty s = false) (h : s.params.n ≤ s.tail) : qDeq s = .error .noSuchSlot := by
  simp [qDeq, hne, memRead_of_le h]

/-- The first slot an enqueue writes is `HEAD`: past the space checks, a `HEAD` that names no slot stops it before
anything is written. -/
theorem enqueue_of_le_head {fs : Batch} (hfull : isFull s = false) (hroom : fs.size ≤ free s)
    (h : s.params.n ≤ s.head) : fs.enqueue s = .error .noSuchSlot := by
  cases fs with
  | one f => simp [Batch.enqueue, qEnq, hfull, memWrite_of_le h]
  | two f1 f2 =>
    have hroom : ¬ free s < 2 := hroom.not_gt
    simp [Batch.enqueue, qEnq2, hroom, memWrite_of_le h]

theorem submit_of_le_head {fs : Batch} (hfull : isFull s = false) (hroom : fs.size ≤ free s)
    (h : s.params.n ≤ s.head) : submit fs s = .fault .noSuchSlot := by
  simp [submit, hroom.not_gt, enqueue_of_le_head hfull hroom h]

theorem exec_uIdle_of_le_tail (hne : isEmpty s = false) (h : s.params.n ≤ s.tail) :
    exec .uIdle s = .fault .noSuchSlot := by
  simp [exec, execUIdle, qDeq_of_le_tail hne h]

theorem exec_uWbit_of_bptr_seven {k : BitVec 3} (h : s.bptr = 7) : exec (.uWbit k) s = .fault .noSuchPayloadByte := by
  simp [exec, execUWbit, h]

theorem BlockInv.bptr_ne_seven (h : BlockInv s) (hsend : Sending s) : s.bptr ≠ 7 := fun hseven =>
  absurd (h.bptr_lt hsend) (by simp [hseven])

end Sys2Proof.Machine

section
open Sys2Proof Sys2Proof.Machine

/-- Settles O29: a read or a write of a slot at or above `N` stops the dequeue or the enqueue it is part of, `CUR_B`
ends at index 6, and the invariant keeps `BPTR` and both indices below these bounds. -/
theorem missingSlotOrByteFaults : Obligations.MissingSlotOrByteFaults := by
  refine ⟨?byte, ?dequeue, ?wrbyte, ?enqueue, ?inv⟩
  case byte => exact fun _ _ => exec_uWbit_of_bptr_seven
  case dequeue => exact fun _ => exec_uIdle_of_le_tail
  case wrbyte => exact fun b _ hfull hroom hhead => submit_of_le_head (fs := .one (Frame.of [b])) hfull hroom hhead
  case enqueue => exact fun _ _ => submit_of_le_head
  case inv => exact fun _ h => ⟨h.bptr_ne_seven, h.tail_lt, h.head_lt⟩

end
